-- ==== Sys2Proof/Word.lean ====
section
/-! DEFINITION. The value types of the spec (00_scope.md R9) and the operators on them that core Lean does not
already name (R8, R10). Every value is unsigned; nothing here is signed, divides, or is floating point. -/

namespace Sys2Proof

/-- `u8` of R9: the block's data unit is the byte (R53). -/
abbrev Byte := BitVec 8

/-- `u32` of R9: a Rabbit word (parameter `W`) and a command word (R70). -/
abbrev Word := BitVec 32

/-- `bytes` of R9: a finite byte sequence, index 0 first. -/
abbrev Bytes := List Byte

/-- `zeros(n)` of R9: `n` copies of the byte 0x00. -/
abbrev zeros (n : Nat) : Bytes := List.replicate n 0

/-- `rotl(x, n)` of R10, for `0 < n < 32`. -/
abbrev rotl (x : Word) (n : Nat) : Word := (x <<< n) ||| (x >>> (32 - n))

end Sys2Proof
end

