-- ==== Sys2Proof/Syntax.lean ====
section
/-! DEFINITION. The command record as the host sends it (30_encoding.md R70) and the decoded commands: one
constructor of `Instr` per row of spec/opcode_table.json. A command's operands, payload included, arrive with it
(R62), so they are fields of the decoded command. -/

namespace Sys2Proof

/-- R70: "three 32-bit words and a byte sequence". `PLEN` is `payload.length`: the transport delivers it with the
payload. -/
structure Command where
  cmd     : Word
  arg0    : Word
  arg1    : Word
  payload : Bytes
deriving DecidableEq, Repr

/-- The operands of INIT_ENC and INIT_DEC, each at the width of its field (R72, R73). Reserved VALUES of a field
(ENG 2 to 15, PADM 5 to 15, CHM 1 to 255) are representable: INIT answers them with an error (R203). `ARG1` is not an
operand: it is ignored (R73, R80). -/
structure InitOps where
  eng     : BitVec 4
  padm    : BitVec 4
  bsz     : BitVec 8
  chm     : BitVec 8
  keylen  : BitVec 8
  ivlen   : BitVec 16
  payload : Bytes
deriving DecidableEq, Repr

/-- The six commands (R71), one constructor per row of spec/opcode_table.json. -/
inductive Instr where
  /-- INIT_ENC, opcode 0x01 (R201). -/
  | initEnc (o : InitOps)
  /-- INIT_DEC, opcode 0x02 (R202). -/
  | initDec (o : InitOps)
  /-- XFORM_BLOCK, opcode 0x10 (R205): COUNT is ARG0, OCAP is ARG1 (R74). -/
  | xformBlock (count ocap : Word) (payload : Bytes)
  /-- XFORM_FINAL, opcode 0x11 (R206): COUNT is ARG0, ARG1 is ignored (R74). -/
  | xformFinal (count : Word) (payload : Bytes)
  /-- GET_INFO, opcode 0x20 (R207): no operands (R75). -/
  | getInfo
  /-- DISPOSE, opcode 0x30 (R208): no operands (R75). -/
  | dispose
deriving DecidableEq, Repr

end Sys2Proof
end

