-- ==== Sys2Proof/Decode.lean ====
section
/-! DEFINITION. The decoder, total on every command record (R200's encoding checks, in its order), and the encoder,
written from the field layouts R70 to R75. -/

namespace Sys2Proof

/-- Why a record is no command: the two causes of ERR_ILLEGAL (R84, R231). -/
inductive DecodeError where
  /-- `OPC` is not in R71's table (R81): ERR_ILLEGAL detail 1. -/
  | opcode
  /-- A reserved field is not zero (R80): ERR_ILLEGAL detail 2. -/
  | reserved
deriving DecidableEq, Repr

/-- `OPC = CMD[31:24]` (R71). -/
def Command.opc (c : Command) : BitVec 8 := c.cmd.extractLsb' 24 8

/-- `CMD[23:0]`, reserved in all but the INIT commands (R74, R75). -/
def Command.low24 (c : Command) : BitVec 24 := c.cmd.extractLsb' 0 24

/-- `ARG0[15:8]`, reserved in the INIT commands (R73). -/
def Command.initReserved (c : Command) : BitVec 8 := c.arg0.extractLsb' 8 8

/-- The INIT field layout of R72 and R73. -/
def Command.initOps (c : Command) : InitOps where
  eng     := c.cmd.extractLsb' 20 4
  padm    := c.cmd.extractLsb' 16 4
  bsz     := c.cmd.extractLsb' 8 8
  chm     := c.cmd.extractLsb' 0 8
  keylen  := c.arg0.extractLsb' 0 8
  ivlen   := c.arg0.extractLsb' 16 16
  payload := c.payload

/-- R200's third encoding check, for the two INIT commands: `ARG0[15:8]` must be zero. -/
def decodeInit (mk : InitOps → Instr) (c : Command) : Except DecodeError Instr :=
  if c.initReserved ≠ 0 then .error .reserved else .ok (mk c.initOps)

/-- R200's second encoding check, for the four other commands: `CMD[23:0]` must be zero. -/
def decodePlain (i : Instr) (c : Command) : Except DecodeError Instr :=
  if c.low24 ≠ 0 then .error .reserved else .ok i

/-- The decoder: R71's opcode map, then the reserved fields of R80. A word that a command does not use is dropped
here, which is how it is "ignored entirely, whatever its value" (R80). -/
def decode (c : Command) : Except DecodeError Instr :=
  if c.opc = 0x01#8 then decodeInit .initEnc c
  else if c.opc = 0x02#8 then decodeInit .initDec c
  else if c.opc = 0x10#8 then decodePlain (.xformBlock c.arg0 c.arg1 c.payload) c
  else if c.opc = 0x11#8 then decodePlain (.xformFinal c.arg0 c.payload) c
  else if c.opc = 0x20#8 then decodePlain .getInfo c
  else if c.opc = 0x30#8 then decodePlain .dispose c
  else .error .opcode

/-- The record of an INIT command (R72, R73); the ignored ARG1 is 0, as in the examples of 30_encoding.md section 7. -/
def encodeInit (opc : BitVec 8) (o : InitOps) : Command where
  cmd     := opc ++ o.eng ++ o.padm ++ o.bsz ++ o.chm
  arg0    := o.ivlen ++ (0 : BitVec 8) ++ o.keylen
  arg1    := 0
  payload := o.payload

/-- The `CMD` word of a command whose `CMD[23:0]` is reserved (R74, R75). -/
def plainCmd (opc : BitVec 8) : Word := opc ++ (0 : BitVec 24)

/-- The encoder: the record of a decoded command. Words and payload bytes that the command ignores are written as
zero and empty. -/
def encode : Instr → Command
  | .initEnc o => encodeInit 0x01#8 o
  | .initDec o => encodeInit 0x02#8 o
  | .xformBlock count ocap payload => ⟨plainCmd 0x10#8, count, ocap, payload⟩
  | .xformFinal count payload => ⟨plainCmd 0x11#8, count, 0, payload⟩
  | .getInfo => ⟨plainCmd 0x20#8, 0, 0, []⟩
  | .dispose => ⟨plainCmd 0x30#8, 0, 0, []⟩

/-- The byte `w[8k+7 : 8k]` of a number. -/
def byteOfNat (w k : Nat) : Byte := BitVec.ofNat 8 (w >>> (8 * k))

/-- The record that the `nbits` low bits of `w` stand for, in the opcode table's numbering: CMD is bits 31..0, ARG0
bits 63..32, ARG1 bits 95..64, and every whole byte above them is a payload byte. Bits at or above `nbits` are 0, and a
row of 96 bits or fewer has no payload. The words are numbers (R70): no byte order enters. -/
def commandOfBits (nbits w : Nat) : Command :=
  let v := w % 2 ^ nbits
  { cmd     := BitVec.ofNat 32 v
    arg0    := BitVec.ofNat 32 (v >>> 32)
    arg1    := BitVec.ofNat 32 (v >>> 64)
    payload := (List.range ((nbits - 96 + 7) / 8)).map fun k => byteOfNat (v >>> 96) k }

/-- The instruction the decoder reads from a row of the opcode table. -/
def decodeTableWord (nbits w : Nat) : Option Instr :=
  match decode (commandOfBits nbits w) with
  | .ok i => some i
  | .error _ => none

end Sys2Proof
end

