-- ==== Sys2Proof/Config.lean ====
section
/-! DEFINITION. What an implementation fixes (the parameter table of 00_scope.md section 4) and the FREE VALUES: the
two places where the spec gives an effect and leaves a value open. A free value is an opaque constant without a body,
so that no proof can see which value it is. -/

namespace Sys2Proof.Config

/-- `RABBIT_KEY_BYTES`: "16 (128 bits), exactly". -/
def rabbitKeyBytes : Nat := 16

/-- `RABBIT_IV_BYTES`: "8 (64 bits) or absent". -/
def rabbitIvBytes : Nat := 8

/-- The default of the named parameter `RC4_MIN_KEY_BYTES` (R6): "Its default is 5, the 40-bit minimum". The
parameter itself is a field of the machine's state, so that a statement about every state is a statement about every
instantiation (assumption 3). -/
def rc4MinKeyDefault : Nat := 5

/-- `RC4_MAX_KEY_BYTES`: 32 (256 bits). -/
def rc4MaxKeyBytes : Nat := 32

/-- The default block size: what `BSZ = 0` means (R78), and Rabbit's one legal block size (R203). -/
def defaultBs : Nat := 16

/-- `MAX_BS`: 32 bytes, the size of the lookahead buffer (R32). -/
def maxBs : Nat := 32

/-- FREE VALUE (assumption 4). The entropy source of R7 as one endless tape of bytes: each answer of `Entropy(n)` is
the next `n` bytes of it. No law holds of the tape and no proof can evaluate it. -/
opaque entropyByte : Nat → Byte

/-- FREE VALUE (assumption 5). The RESULT word of a command whose output is 2^32 bytes or longer, as a function of
the output's length: R82 gives RESULT = |OUT| and a width of 32 bits, and states no value where |OUT| does not fit. -/
opaque longResult : Nat → Word

end Sys2Proof.Config
end

