-- ==== Sys2Proof/Machine/Constants.lean ====
section
/-! DEFINITION. The Rabbit counter constants (40_rabbit.md R100). -/

namespace Sys2Proof.Machine

/-- `A[0..7]` of R100. The values are RFC 4503's, which the spec supplies from general knowledge
(93_implementation_defined.md G1). -/
def rabbitA : Vector Word 8 :=
  #v[0x4D34D34D, 0xD34D34D3, 0x34D34D34, 0x4D34D34D, 0xD34D34D3, 0x34D34D34, 0x4D34D34D, 0xD34D34D3]

end Sys2Proof.Machine
end

