-- ==== Sys2Proof/Machine/State.lean ====
section
/-! DEFINITION. The machine's state as plain data: one field per row of 10_state.md R20, and, after them, the fields
of the MODEL's own that hold the requests from outside, the block's responses, the entropy source's position and the
named parameter of R6. -/

namespace Sys2Proof.Machine

/-- `ST` (R27), two bits: 0 IDLE, 1 ACTIVE, 2 DONE. Value 3 is reserved and no rule writes it, so it is not
representable (93_implementation_defined.md U5: "a model may treat it as impossible"). -/
inductive Life where
  | idle
  | active
  | done
deriving DecidableEq, Repr

/-- `DIR` (R28), one bit: 0 encrypt, 1 decrypt. -/
inductive Direction where
  | encrypt
  | decrypt
deriving DecidableEq, Repr

/-- `ENG` (R29), four bits: 0 Rabbit, 1 RC4; "Values 2 to 15 are reserved and never stored". -/
inductive Engine where
  | rabbit
  | rc4
deriving DecidableEq, Repr

/-- `PADM` (R30), four bits: 0 None, 1 PKCS7, 2 Zeros, 3 ANSIX923, 4 ISO10126; "Values 5 to 15 are reserved and never
stored". -/
inductive PadMode where
  | noPad
  | pkcs7
  | zeros
  | ansix923
  | iso10126
deriving DecidableEq, Repr

/-- The read-only registers `A[0..7]` (R24): "they are read-only and have the same value in every state, including
reset". The field `fixed` makes that so for every value of the type. -/
structure CounterConstants where
  words : Vector Word 8
  fixed : words = rabbitA
deriving DecidableEq, Repr

/-- The registers of unit RABBIT (R21 to R24, R103): `X`, `C`, `CARRY` and the constants `A`. -/
structure Rabbit where
  x     : Vector Word 8
  c     : Vector Word 8
  carry : Bool
  a     : CounterConstants
deriving DecidableEq, Repr

/-- The registers of unit RC4 (R25, R26): the table `S` and the cursors `I` and `J`. -/
structure Rc4 where
  s : Vector Byte 256
  i : Byte
  j : Byte
deriving DecidableEq, Repr

/-- What reaches the block from outside: a command of the host (R62), or a hardware reset of the platform (R260: ResetState
runs "at power-on reset (and at any hardware reset the platform gives)"). -/
inductive Request where
  | command (c : Command)
  | hardwareReset
deriving DecidableEq, Repr

/-- One response record (R82): STATUS, DETAIL, RESULT, OUT. -/
structure Response where
  status : Byte
  detail : Byte
  result : Word
  out    : Bytes
deriving DecidableEq, Repr

/-- The four causes of ERR_PADDING (R84, R235). -/
inductive PadError where
  /-- PAD_VALUE: the last byte is not in 1..BS (R160). -/
  | value
  /-- PAD_BYTES: a trailing pad byte of PKCS7 is not N (R161). -/
  | bytes
  /-- PAD_NONZERO: a pad byte of ANSIX923 before the last is not 0x00 (R162). -/
  | nonzero
  /-- LENGTH: the decrypted tail is not a multiple of BS, or empty where a pad byte is required (R157). -/
  | length
deriving DecidableEq, Repr

/-- Every error of the block (R84, R230), by the name R84 gives it. -/
inductive Err where
  /-- OPCODE (R81). -/
  | opcode
  /-- RESERVED (R80). -/
  | reserved
  /-- NOT_CONFIGURED: a transform command in IDLE. -/
  | notConfigured
  /-- FINISHED: a transform command in DONE. -/
  | finished
  /-- BUSY: an INIT outside IDLE. -/
  | busy
  /-- KEY_MISSING. -/
  | keyMissing
  /-- KEY_LENGTH. -/
  | keyLength
  /-- IV_LENGTH. -/
  | ivLength
  /-- BLOCK_SIZE. -/
  | blockSize
  /-- MODE. -/
  | mode
  /-- PADDING. -/
  | padding
  /-- ENGINE. -/
  | engine
  /-- PAYLOAD_SHORT. -/
  | payloadShort
  /-- COUNT. -/
  | count
  /-- INPUT_SHORT. -/
  | inputShort
  /-- OUTPUT_SHORT. -/
  | outputShort
  /-- ERR_PADDING with its detail. -/
  | pad (d : PadError)
deriving DecidableEq, Repr

/-- The whole state. The fields `rabbit` to `m` are R20's table, row by row, and nothing else; the four fields after
`m` are the MODEL's own. -/
structure State where
  /-- `X[0..7]`, `C[0..7]`, `CARRY`, `A[0..7]` (R21 to R24). -/
  rabbit : Rabbit
  /-- `S[0..255]`, `I`, `J` (R25, R26). -/
  rc4 : Rc4
  /-- `ST` (R27). -/
  st : Life
  /-- `DIR` (R28). -/
  dir : Direction
  /-- `ENG` (R29). -/
  eng : Engine
  /-- `PADM` (R30). -/
  padm : PadMode
  /-- `BS` (R31), in bytes; 0 only in IDLE. -/
  bs : BitVec 8
  /-- `LA_BUF[0..31]` (R32). -/
  laBuf : Vector Byte 32
  /-- `LA_VALID` (R33). -/
  laValid : Bool
  /-- `M` (R34), the stream position. -/
  m : BitVec 64
  /-- MODEL FIELD: the named parameter `RC4_MIN_KEY_BYTES` (R6). No command writes it (assumption 3). -/
  rc4MinKeyBytes : Nat
  /-- MODEL FIELD: how many bytes the entropy source (R7) has answered so far. No register of the block, and no reset
  or DISPOSE rewinds it (assumption 4). -/
  entropyPos : Nat
  /-- MODEL FIELD: what will reach the block from outside, next first: the commands the host has still to issue, and the
  platform's resets among them (assumption 1). -/
  inbox : List Request
  /-- MODEL FIELD: the responses the block has returned, oldest first (assumption 1). -/
  outbox : List Response
deriving DecidableEq, Repr

/-- The faults of the machine: none. The spec gives the block no trap and no stuck state that a rule reaches: every
error is a response, after which the block goes on (R230, R241). -/
inductive Fault where
deriving DecidableEq, Repr

/-- The refusals of the machine. -/
inductive Refusal where
  /-- An instruction whose arm has no meaning yet. Raised by `exec` alone, and by no arm now: all six commands are
  modelled. Safe: a run stops where the hardware goes on. -/
  | notModelled (mnemonic : String)
deriving DecidableEq, Repr

/-- Every register of unit RABBIT at its reset value (R40); the constants `A` "do not reset: they always hold their
R100 values". -/
def Rabbit.reset : Rabbit := ⟨Vector.replicate 8 0, Vector.replicate 8 0, false, ⟨rabbitA, rfl⟩⟩

/-- Every register of unit RC4 at its reset value (R40). -/
def Rc4.reset : Rc4 := ⟨Vector.replicate 256 0, 0, 0⟩

/-- The machine right after reset (R40, R260): every register 0 and ST = IDLE. The model's own fields: the parameter
at its default 5 (R6), and no command waiting, no response returned and no entropy drawn (assumptions 1, 3 and 4). -/
def State.reset : State where
  rabbit := Rabbit.reset
  rc4 := Rc4.reset
  st := .idle
  dir := .encrypt
  eng := .rabbit
  padm := .noPad
  bs := 0
  laBuf := Vector.replicate 32 0
  laValid := false
  m := 0
  rc4MinKeyBytes := Config.rc4MinKeyDefault
  entropyPos := 0
  inbox := []
  outbox := []

end Sys2Proof.Machine
end

