-- ==== Sys2Proof/Machine/Operands.lean ====
section
/-! DEFINITION. The operand forms: what each field of a command stands for (30_encoding.md section 3), the register
codes that the INFO word reports (R27 to R30), the status and detail codes (R83, R84) and `PayloadRead` (R51). -/

namespace Sys2Proof.Machine

/-- `PayloadRead(a, b) = PAYLOAD[a..b)` (R51). -/
def payloadRead (payload : Bytes) (a b : Nat) : Bytes := (payload.take b).drop a

/-- R78: the effective block size; `BSZ = 0` means the default 16. -/
def blockSizeOf (bsz : BitVec 8) : BitVec 8 := if bsz = 0 then BitVec.ofNat 8 Config.defaultBs else bsz

/-- R76: the engine that an ENG field selects, if it is not reserved. -/
def Engine.ofField (f : BitVec 4) : Option Engine :=
  match f.toNat with
  | 0 => some .rabbit
  | 1 => some .rc4
  | _ => none

/-- R77: the padding mode that a PADM field selects, if it is not reserved. -/
def PadMode.ofField (f : BitVec 4) : Option PadMode :=
  match f.toNat with
  | 0 => some .noPad
  | 1 => some .pkcs7
  | 2 => some .zeros
  | 3 => some .ansix923
  | 4 => some .iso10126
  | _ => none

/-- The two bits of `ST` (R27). -/
def Life.code : Life → BitVec 2
  | .idle => 0
  | .active => 1
  | .done => 2

/-- The bit of `DIR` (R28). -/
def Direction.code : Direction → BitVec 1
  | .encrypt => 0
  | .decrypt => 1

/-- The four bits of `ENG` (R29). -/
def Engine.code : Engine → BitVec 4
  | .rabbit => 0
  | .rc4 => 1

/-- The four bits of `PADM` (R30). -/
def PadMode.code : PadMode → BitVec 4
  | .noPad => 0
  | .pkcs7 => 1
  | .zeros => 2
  | .ansix923 => 3
  | .iso10126 => 4

/-- `key = PayloadRead(0, KEYLEN)` (R73, R204). -/
def initKey (o : InitOps) : Bytes := payloadRead o.payload 0 o.keylen.toNat

/-- `iv = PayloadRead(KEYLEN, KEYLEN + IVLEN)` (R73, R204); empty when `IVLEN = 0`, which means "no IV". -/
def initIv (o : InitOps) : Bytes := payloadRead o.payload o.keylen.toNat (o.keylen.toNat + o.ivlen.toNat)

/-- The IV as RabbitSetup takes it (R114): absent when `IVLEN = 0` (R73). -/
def initIvOption (o : InitOps) : Option Bytes := if o.ivlen = 0 then none else some (initIv o)

/-- The STATUS code of an error (R83). -/
def Err.status : Err → Byte
  | .opcode | .reserved => 0x01
  | .notConfigured | .finished | .busy => 0x02
  | .keyMissing | .keyLength | .ivLength | .blockSize | .mode | .padding | .engine | .payloadShort => 0x03
  | .count | .inputShort | .outputShort => 0x04
  | .pad _ => 0x05

/-- The DETAIL code of an ERR_PADDING (R84). -/
def PadError.detail : PadError → Byte
  | .value => 1
  | .bytes => 2
  | .nonzero => 3
  | .length => 4

/-- The DETAIL code of an error (R84). -/
def Err.detail : Err → Byte
  | .opcode => 1
  | .reserved => 2
  | .notConfigured => 1
  | .finished => 2
  | .busy => 3
  | .keyMissing => 1
  | .keyLength => 2
  | .ivLength => 3
  | .blockSize => 4
  | .mode => 5
  | .padding => 6
  | .engine => 7
  | .payloadShort => 8
  | .count => 1
  | .inputShort => 2
  | .outputShort => 3
  | .pad d => d.detail

/-- RESULT for an output of `n` bytes: `RESULT = |OUT|` (R82), a u32. Where `n` does not fit in 32 bits the spec states
no value, and the word is free (assumption 5). -/
def resultOf (n : Nat) : Word := if n < 2 ^ 32 then BitVec.ofNat 32 n else Config.longResult n

/-- `LA_MODE = (DIR = 1 and PADM != 0)` (R180): the lookahead mode of the transform. -/
def State.laMode (s : State) : Bool := s.dir == .decrypt && s.padm != .noPad

end Sys2Proof.Machine
end

