-- ==== Sys2Proof/Machine/Flags.lean ====
section
/-! DEFINITION. The block's two flags (10_state.md R39) as they are computed and reported: the Rabbit `CARRY`, from the
33-bit sum of one counter lane (R104), and the INFO word, which reports `LA_VALID` (R85). -/

namespace Sys2Proof.Machine

/-- R104's 33-bit sum of one lane: `zext_33(C[j]) + zext_33(A[j]) + zext_33(CARRY)`. -/
def laneSum (c a : Word) (carry : Bool) : BitVec 33 :=
  c.setWidth 33 + a.setWidth 33 + (BitVec.ofBool carry).setWidth 33

/-- R104: `CARRY <- t[32]`. -/
def laneCarry (t : BitVec 33) : Bool := t.getLsbD 32

/-- R104: `C[j] <- t[31:0]`. -/
def laneWord (t : BitVec 33) : Word := t.extractLsb' 0 32

/-- The INFO word (R85, R207): `ST | DIR << 2 | LA_VALID << 3 | ENG << 4 | PADM << 8 | BS << 16`; every other bit is 0. -/
def State.infoWord (s : State) : Word :=
  s.st.code.setWidth 32 ||| s.dir.code.setWidth 32 <<< 2 ||| (BitVec.ofBool s.laValid).setWidth 32 <<< 3 |||
    s.eng.code.setWidth 32 <<< 4 ||| s.padm.code.setWidth 32 <<< 8 ||| s.bs.setWidth 32 <<< 16

end Sys2Proof.Machine
end

