-- ==== Sys2Proof/Machine/Ops.lean ====
section
/-! DEFINITION. The operations that the commands share: the response (30_encoding.md R82), raising an error, which is
the block's one exception mechanism (60_exceptions.md R230, R236, R241), ResetState (70_reset_and_hazards.md R260),
the entropy oracle (00_scope.md R7) and taking the next request from outside (20_memory.md R58, R62). -/

namespace Sys2Proof.Machine

/-- Return one response record (R82). -/
def respond (r : Response) (s : State) : State := { s with outbox := s.outbox ++ [r] }

/-- The response of a command that succeeds with the given RESULT and OUT (R82): STATUS 0x00, DETAIL 0. -/
def okResponse (result : Word) (out : Bytes) : Response := ⟨0x00, 0, result, out⟩

/-- The response of an error (R236): its STATUS and DETAIL, RESULT 0, OUT empty. -/
def errResponse (e : Err) : Response := ⟨e.status, e.detail, 0, []⟩

/-- TAKING AN EXCEPTION: `raise Err(STATUS, DETAIL)` (R11, R230, R236, R241). The command ends at once with the error's
response, which is the only record of it: no register saves anything, the mode does not change and there is nothing to
return from (R241). The state `s` is the one the command leaves: for every error but ERR_PADDING the state it found
(R237). -/
def raiseErr (e : Err) (s : State) : State := respond (errResponse e) s

/-- A command that succeeds with the output `out`: `RESULT <- |OUT|` (R205, R206). -/
def finish (out : Bytes) (s : State) : State := respond (okResponse (resultOf out.length) out) s

/-- The error a record that is no command raises (R231). -/
def Err.ofDecode : DecodeError → Err
  | .opcode => .opcode
  | .reserved => .reserved

/-- ResetState() (R260): every register of R20's table to its reset value. The constants `A` keep their values, and the
model's own fields, which are no registers of the block, stay as they are. -/
def resetState (s : State) : State :=
  { s with
    rabbit := { x := Vector.replicate 8 0, c := Vector.replicate 8 0, carry := false, a := s.rabbit.a }
    rc4 := { s := Vector.replicate 256 0, i := 0, j := 0 }
    st := .idle, dir := .encrypt, eng := .rabbit, padm := .noPad, bs := 0
    laBuf := Vector.replicate 32 0, laValid := false, m := 0 }

/-- `Entropy(n)` (R7): the next `n` bytes of the entropy source. -/
def entropy (n : Nat) (s : State) : Bytes × State :=
  ((List.range n).map fun k => Config.entropyByte (s.entropyPos + k), { s with entropyPos := s.entropyPos + n })

/-- Take the next request from outside (R58: in the order the host issues its commands, one at a time). Nothing when none
waits: "the block acts only when a command arrives" (R240). -/
def takeRequest (s : State) : Option (Request × State) :=
  match s.inbox with
  | [] => none
  | q :: rest => some (q, { s with inbox := rest })

end Sys2Proof.Machine
end

