-- ==== Sys2Proof/Machine/Padding.lean ====
section
/-! DEFINITION. The padding datapath (42_padding.md): `Pad`, applied to the plaintext tail on encrypt, and `Unpad`,
applied to the decrypted tail on decrypt. `B` is always the register BS. -/

namespace Sys2Proof.Machine

/-- PadCount (R150): `N <- B - (L mod B)`. -/
def padCount (B L : Nat) : Nat := B - L % B

/-- Pad for PKCS7 (R152): the value N, N times. -/
def padPkcs7 (P : Bytes) (B : Nat) : Bytes :=
  let N := padCount B P.length
  P ++ List.replicate N (BitVec.ofNat 8 N)

/-- Pad for Zeros (R153): nothing when the input is aligned. -/
def padZeros (P : Bytes) (B : Nat) : Bytes :=
  if P.length % B = 0 then P else P ++ zeros (B - P.length % B)

/-- Pad for ANSIX923 (R154): zeros, then the count N. -/
def padAnsix923 (P : Bytes) (B : Nat) : Bytes :=
  let N := padCount B P.length
  P ++ zeros (N - 1) ++ [BitVec.ofNat 8 N]

/-- Pad for ISO10126 (R155) with the entropy answer `R`: the answer, then the count N. -/
def padIso10126 (P : Bytes) (B : Nat) (R : Bytes) : Bytes :=
  P ++ R ++ [BitVec.ofNat 8 (padCount B P.length)]

/-- `Pad(mode, P, B)` (R151 to R155). Only ISO10126 calls the entropy source, for `N - 1` bytes (R155). -/
def pad (mode : PadMode) (P : Bytes) (B : Nat) (s : State) : Bytes × State :=
  match mode with
  | .noPad => (P, s)
  | .pkcs7 => (padPkcs7 P B, s)
  | .zeros => (padZeros P B, s)
  | .ansix923 => (padAnsix923 P B, s)
  | .iso10126 =>
    let R := entropy (padCount B P.length - 1) s
    (padIso10126 P B R.1, R.2)

/-- R157's length check: `some length` when the tail cannot be a padded text. `needsByte` says that the mode reads a pad
byte, so that an empty tail fails too. -/
def unpadLength (needsByte : Bool) (D : Bytes) (B : Nat) : Option PadError :=
  if D.length % B ≠ 0 then some .length
  else if D.length = 0 ∧ needsByte = true then some .length
  else none

/-- The last byte of the tail as a number: the pad count N of R160. -/
def padByte (D : Bytes) : Nat := (D.getLastD 0).toNat

/-- R160's check: N must be in 1..B. -/
def unpadValue (D : Bytes) (B : Nat) : Option PadError :=
  if padByte D < 1 ∨ B < padByte D then some .value else none

/-- The tail without its last `n` bytes: `D[0 .. |D| - n)`. -/
def dropTail (D : Bytes) (n : Nat) : Bytes := D.take (D.length - n)

/-- The last `n` bytes of the tail: `D[|D| - n .. |D|)`. -/
def lastBytes (D : Bytes) (n : Nat) : Bytes := D.drop (D.length - n)

/-- R159's count `k` of trailing 0x00 bytes, at most B of them and at most |D|. -/
def zeroTail (D : Bytes) (B : Nat) : Nat := ((D.reverse.take B).takeWhile (· == 0)).length

/-- Unpad for Zeros (R157, R159). -/
def unpadZeros (D : Bytes) (B : Nat) : Except PadError Bytes :=
  match unpadLength false D B with
  | some d => .error d
  | none => .ok (dropTail D (zeroTail D B))

/-- The two checks that PKCS7, ANSIX923 and ISO10126 share, in order: R157, then R160. -/
def unpadChecks (D : Bytes) (B : Nat) : Option PadError :=
  match unpadLength true D B with
  | some d => some d
  | none => unpadValue D B

/-- Unpad for PKCS7 (R161): every one of the N trailing bytes must be N. -/
def unpadPkcs7 (D : Bytes) (B : Nat) : Except PadError Bytes :=
  match unpadChecks D B with
  | some d => .error d
  | none =>
    if (lastBytes D (padByte D)).all (fun b => b.toNat == padByte D) then .ok (dropTail D (padByte D))
    else .error .bytes

/-- Unpad for ANSIX923 (R162): the N - 1 bytes before the last must be 0x00. -/
def unpadAnsix923 (D : Bytes) (B : Nat) : Except PadError Bytes :=
  match unpadChecks D B with
  | some d => .error d
  | none =>
    if (lastBytes D (padByte D)).dropLast.all (fun b => b == 0) then .ok (dropTail D (padByte D))
    else .error .nonzero

/-- Unpad for ISO10126 (R163): no check of the N - 1 bytes before the last. -/
def unpadIso10126 (D : Bytes) (B : Nat) : Except PadError Bytes :=
  match unpadChecks D B with
  | some d => .error d
  | none => .ok (dropTail D (padByte D))

/-- `Unpad(mode, D, B)` (R157 to R163). None never fails (R158). -/
def unpad (mode : PadMode) (D : Bytes) (B : Nat) : Except PadError Bytes :=
  match mode with
  | .noPad => .ok D
  | .pkcs7 => unpadPkcs7 D B
  | .zeros => unpadZeros D B
  | .ansix923 => unpadAnsix923 D B
  | .iso10126 => unpadIso10126 D B

end Sys2Proof.Machine
end

