-- ==== Sys2Proof/Machine/Rabbit.lean ====
section
/-! DEFINITION. The Rabbit keystream engine (40_rabbit.md). Its operations are exactly R102's list, each a function of
the engine's registers. -/

namespace Sys2Proof.Machine

/-- One pass of R104's loop body: lane `j` adds `A[j]` and the carry, and leaves its own carry in the one carry
register. -/
def Rabbit.counterLane (r : Rabbit) (j : Fin 8) : Rabbit :=
  let t := laneSum r.c[j] r.a.words[j] r.carry
  { r with carry := laneCarry t, c := r.c.set j (laneWord t) }

/-- CounterUpdate (R104): the lanes in order 0 to 7. -/
def Rabbit.counterUpdate (r : Rabbit) : Rabbit := [0, 1, 2, 3, 4, 5, 6, 7].foldl Rabbit.counterLane r

/-- g (R105): the sum mod 2^32, squared exactly in 64 bits, low half XOR high half. -/
def rabbitG (u v : Word) : Word :=
  let t : Word := u + v
  let sq : BitVec 64 := t.setWidth 64 * t.setWidth 64
  sq.extractLsb' 0 32 ^^^ sq.extractLsb' 32 32

/-- The temporary `G[0..7]` of R106, all eight from the old `X`. -/
def Rabbit.gWords (r : Rabbit) : Vector Word 8 := Vector.ofFn fun i => rabbitG r.x[i] r.c[i]

/-- R106's formula for `X[j]`; the indices of `G` are mod 8, as `Fin 8` adds. -/
def recombine (G : Vector Word 8) (j : Fin 8) : Word :=
  if j.val % 2 = 0 then G[j] + rotl G[j + 7] 16 + rotl G[j + 6] 16
  else G[j] + rotl G[j + 7] 8 + G[j + 6]

/-- NextState (R106). -/
def Rabbit.nextState (r : Rabbit) : Rabbit :=
  let G := r.gWords
  { r with x := Vector.ofFn (recombine G) }

/-- Iterate (R107): CounterUpdate, then NextState on the counters it has just written. -/
def Rabbit.iterate (r : Rabbit) : Rabbit := r.counterUpdate.nextState

/-- `repeat n times: Iterate()` (R112, R113). -/
def Rabbit.iterates : Nat → Rabbit → Rabbit
  | 0, r => r
  | n + 1, r => Rabbit.iterates n r.iterate

/-- The bytes of a word, least significant first (R53, R54, R108). -/
def wordBytes (w : Word) : Bytes := [w.extractLsb' 0 8, w.extractLsb' 8 8, w.extractLsb' 16 8, w.extractLsb' 24 8]

/-- The four output words `S0..S3` of R108. -/
def Rabbit.outputWords (r : Rabbit) : List Word :=
  [ r.x[0] ^^^ (r.x[5] >>> 16) ^^^ (r.x[3] <<< 16),
    r.x[2] ^^^ (r.x[7] >>> 16) ^^^ (r.x[5] <<< 16),
    r.x[4] ^^^ (r.x[1] >>> 16) ^^^ (r.x[7] <<< 16),
    r.x[6] ^^^ (r.x[3] >>> 16) ^^^ (r.x[1] <<< 16) ]

/-- ExtractOutput (R108): the 16 keystream bytes. -/
def Rabbit.extractOutput (r : Rabbit) : Bytes := r.outputWords.flatMap wordBytes

/-- NextBlock (R109): `Iterate(); return ExtractOutput()`. -/
def Rabbit.nextBlock (r : Rabbit) : Bytes × Rabbit := (r.iterate.extractOutput, r.iterate)

/-- The `i`-th 32-bit word of a byte sequence, byte `4i` least significant (R110, R113). -/
def leWord (D : Bytes) (i : Nat) : Word :=
  (D.getD (4 * i) 0).setWidth 32 ||| (D.getD (4 * i + 1) 0).setWidth 32 <<< 8 |||
    (D.getD (4 * i + 2) 0).setWidth 32 <<< 16 ||| (D.getD (4 * i + 3) 0).setWidth 32 <<< 24

/-- Key-word split (R110): `k[0..3]`. -/
def keyWords (key : Bytes) : Vector Word 4 := Vector.ofFn fun i => leWord key i.val

/-- The index `h = j div 2` of R111. -/
def halfIndex (j : Fin 8) : Fin 4 := ⟨j.val / 2, by omega⟩

/-- `X[j]` of InitialLoad (R111); the indices of `k` are mod 4. -/
def loadX (k : Vector Word 4) (j : Fin 8) : Word :=
  let h := halfIndex j
  if j.val % 2 = 0 then k[h] else (k[h + 3] <<< 16) ||| (k[h + 2] >>> 16)

/-- `C[j]` of InitialLoad (R111). -/
def loadC (k : Vector Word 4) (j : Fin 8) : Word :=
  let h := halfIndex j
  if j.val % 2 = 0 then rotl k[h + 2] 16 else (k[h] &&& 0xFFFF0000) ||| (k[h + 1] &&& 0x0000FFFF)

/-- InitialLoad (R111). `CARRY` is not written here. -/
def Rabbit.initialLoad (k : Vector Word 4) (r : Rabbit) : Rabbit :=
  { r with x := Vector.ofFn (loadX k), c := Vector.ofFn (loadC k) }

/-- The re-XOR that ends KeySetup (R112): `C[j] <- C[j] ^ X[(j+4) mod 8]`. -/
def Rabbit.reXor (r : Rabbit) : Rabbit := { r with c := Vector.ofFn fun j : Fin 8 => r.c[j] ^^^ r.x[j + 4] }

/-- KeySetup (R112). -/
def Rabbit.keySetup (key : Bytes) (r : Rabbit) : Rabbit :=
  let loaded := { r.initialLoad (keyWords key) with carry := false }
  (loaded.iterates 4).reXor

/-- The expanded IV `IV32` of R113. -/
def ivWords (iv : Bytes) : Vector Word 4 :=
  let i0 := leWord iv 0
  let i2 := leWord iv 1
  #v[i0, (i0 >>> 16) ||| (i2 &&& 0xFFFF0000), i2, (i2 <<< 16) ||| (i0 &&& 0x0000FFFF)]

/-- R113's XOR of the expanded IV into the counters: `C[j] <- C[j] ^ IV32[j mod 4]`. -/
def Rabbit.xorIv (iv : Bytes) (r : Rabbit) : Rabbit :=
  { r with c := Vector.ofFn fun j : Fin 8 => r.c[j] ^^^ (ivWords iv)[j.val % 4] }

/-- IvSetup (R113). `CARRY` is not cleared. -/
def Rabbit.ivSetup (iv : Bytes) (r : Rabbit) : Rabbit := (r.xorIv iv).iterates 4

/-- RabbitSetup (R114). -/
def Rabbit.setup (key : Bytes) (iv : Option Bytes) (r : Rabbit) : Rabbit :=
  match iv with
  | none => r.keySetup key
  | some v => (r.keySetup key).ivSetup v

/-- `n` keystream blocks in a row. -/
def Rabbit.blocks : Nat → Rabbit → Bytes × Rabbit
  | 0, r => ([], r)
  | n + 1, r =>
    let first := r.nextBlock
    let rest := Rabbit.blocks n first.2
    (first.1 ++ rest.1, rest.2)

/-- `ceil(n / 16)`: the iterations that a draw of `n` bytes runs (R115). -/
def blocksFor (n : Nat) : Nat := (n + 15) / 16

/-- RabbitDraw(n) (R115): whole blocks until there are `n` bytes; the tail of the last block is discarded. -/
def Rabbit.draw (n : Nat) (r : Rabbit) : Bytes × Rabbit :=
  let drawn := Rabbit.blocks (blocksFor n) r
  (drawn.1.take n, drawn.2)

end Sys2Proof.Machine
end

