-- ==== Sys2Proof/Machine/Rc4.lean ====
section
/-! DEFINITION. The RC4 keystream engine (41_rc4.md). The table's size is 256 and a byte is below 256, so every
index is in range and all arithmetic is mod 256. -/

namespace Sys2Proof.Machine

/-- The table entry at a byte. -/
def Rc4.entry (S : Vector Byte 256) (k : Byte) : Byte := S[k.toNat]

/-- `swap(S[i], S[j])` (R131, R132). -/
def Rc4.swap (S : Vector Byte 256) (i j : Byte) : Vector Byte 256 := S.swap i.toNat j.toNat

/-- KeyMaterial (R130): `K' = key ++ iv`. -/
def keyMaterial (key iv : Bytes) : Bytes := key ++ iv

/-- R131's first loop: `S[i] <- i`. -/
def Rc4.identity : Vector Byte 256 := Vector.ofFn fun i => BitVec.ofNat 8 i.val

/-- The body of R131's second loop. The pair is `S` and the temporary `j`, which is not the register `J`. -/
def Rc4.ksaStep (K : Bytes) (p : Vector Byte 256 × Byte) (i : Nat) : Vector Byte 256 × Byte :=
  let j := p.2 + Rc4.entry p.1 (BitVec.ofNat 8 i) + K.getD (i % K.length) 0
  (Rc4.swap p.1 (BitVec.ofNat 8 i) j, j)

/-- KSA (R131): the schedule, then `I <- 0` and `J <- 0`. -/
def Rc4.ksa (K : Bytes) : Rc4 :=
  ⟨((List.range 256).foldl (Rc4.ksaStep K) (Rc4.identity, 0)).1, 0, 0⟩

/-- PRGA (R132): one keystream byte, read after the swap, and the registers it leaves. -/
def Rc4.prga (r : Rc4) : Byte × Rc4 :=
  let i := r.i + 1
  let j := r.j + Rc4.entry r.s i
  let S := Rc4.swap r.s i j
  (Rc4.entry S (Rc4.entry S i + Rc4.entry S j), ⟨S, i, j⟩)

/-- RC4Draw(n) (R133): `n` PRGA outputs in order. -/
def Rc4.draw : Nat → Rc4 → Bytes × Rc4
  | 0, r => ([], r)
  | n + 1, r =>
    let first := r.prga
    let rest := Rc4.draw n first.2
    (first.1 :: rest.1, rest.2)

end Sys2Proof.Machine
end

