-- ==== Sys2Proof/Machine/Transform.lean ====
section
/-! DEFINITION. The StreamCipherTransform datapath (43_transform.md): the keystream draw, the keystream XOR with the
stream position M, and the lookahead hold and release. -/

namespace Sys2Proof.Machine

/-- `KS(n)` (R181): the next `n` keystream bytes from the bound engine. The other engine does not move. -/
def ks (n : Nat) (s : State) : Bytes × State :=
  match s.eng with
  | .rabbit => let d := s.rabbit.draw n; (d.1, { s with rabbit := d.2 })
  | .rc4 => let d := s.rc4.draw n; (d.1, { s with rc4 := d.2 })

/-- `D XOR E`, bytewise (R9). -/
def xorBytes (D E : Bytes) : Bytes := List.zipWith (· ^^^ ·) D E

/-- XorKs(D) (R182): draw `|D|` bytes, advance M by `|D|` mod 2^64, XOR. -/
def xorKs (D : Bytes) (s : State) : Bytes × State :=
  let K := ks D.length s
  (xorBytes D K.1, { K.2 with m := K.2.m + BitVec.ofNat 64 D.length })

/-- `LA_BUF[0..|blk|) <- blk`; the bytes past `|blk|` keep their value. -/
def storeBlock (buf : Vector Byte 32) (blk : Bytes) : Vector Byte 32 :=
  Vector.ofFn fun k => blk.getD k.val buf[k]

/-- Hold(blk) (R184). -/
def hold (blk : Bytes) (s : State) : State := { s with laBuf := storeBlock s.laBuf blk, laValid := true }

/-- `LA_BUF[0..32) <- zeros(32); LA_VALID <- 0` (R185, R206). -/
def clearLookahead (s : State) : State := { s with laBuf := Vector.replicate 32 0, laValid := false }

/-- The held block `LA_BUF[0..BS)` (R185). -/
def State.heldBlock (s : State) : Bytes := s.laBuf.toList.take s.bs.toNat

/-- Release() (R185): decrypt and emit the held block, if there is one, and zero-fill the buffer. -/
def release (s : State) : Bytes × State :=
  if s.laValid then
    let P := xorKs s.heldBlock s
    (P.1, clearLookahead P.2)
  else ([], s)

end Sys2Proof.Machine
end

