-- ==== Sys2Proof/Machine/Init.lean ====
section
/-! DEFINITION. INIT_ENC and INIT_DEC (44_commands.md R201 to R204): the legality checks in their order, then the
effects of a successful INIT. -/

namespace Sys2Proof.Machine

/-- R203's key-length checks: exactly 16 bytes for Rabbit, `RC4_MIN_KEY_BYTES` to 32 for RC4. -/
def keyLengthLegal (eng : Engine) (minKey keylen : Nat) : Bool :=
  match eng with
  | .rabbit => keylen == Config.rabbitKeyBytes
  | .rc4 => minKey ≤ keylen && keylen ≤ Config.rc4MaxKeyBytes

/-- R203's IV-length check: 0 or 8 bytes for Rabbit, any length for RC4. -/
def ivLengthLegal (eng : Engine) (ivlen : Nat) : Bool :=
  match eng with
  | .rabbit => ivlen == 0 || ivlen == Config.rabbitIvBytes
  | .rc4 => true

/-- R203's block-size checks: 16 for Rabbit, 1 to 32 for RC4. -/
def blockSizeLegal (eng : Engine) (bs : Nat) : Bool :=
  match eng with
  | .rabbit => bs == Config.defaultBs
  | .rc4 => 1 ≤ bs && bs ≤ Config.maxBs

/-- InitCheck (R203): the checks in the order of the rule; the first that fails is the error. When all pass, the engine
and padding mode that the fields select. -/
def initCheck (o : InitOps) (s : State) : Except Err (Engine × PadMode) :=
  if s.st ≠ .idle then .error .busy else
  match Engine.ofField o.eng with
  | none => .error .engine
  | some eng =>
    if o.keylen = 0 then .error .keyMissing
    else if o.payload.length < o.keylen.toNat + o.ivlen.toNat then .error .payloadShort
    else if !keyLengthLegal eng s.rc4MinKeyBytes o.keylen.toNat then .error .keyLength
    else if !ivLengthLegal eng o.ivlen.toNat then .error .ivLength
    else if !blockSizeLegal eng (blockSizeOf o.bsz).toNat then .error .blockSize
    else if o.chm ≠ 0 then .error .mode
    else match PadMode.ofField o.padm with
      | none => .error .padding
      | some padm => .ok (eng, padm)

/-- The engine setup of R204: RabbitSetup(key, iv) or KSA(key ++ iv). -/
def engineSetup (eng : Engine) (o : InitOps) (s : State) : State :=
  match eng with
  | .rabbit => { s with rabbit := s.rabbit.setup (initKey o) (initIvOption o) }
  | .rc4 => { s with rc4 := Rc4.ksa (keyMaterial (initKey o) (initIv o)) }

/-- InitCommon(dir) (R204): ResetState, the configuration registers, the engine, `ST <- ACTIVE`. -/
def initCommon (dir : Direction) (eng : Engine) (padm : PadMode) (o : InitOps) (s : State) : State :=
  let configured := { resetState s with dir := dir, eng := eng, padm := padm, bs := blockSizeOf o.bsz }
  { engineSetup eng o configured with st := .active }

/-- InitCheck, then InitCommon: what INIT_ENC and INIT_DEC share (R201, R202). -/
def initWith (dir : Direction) (o : InitOps) (s : State) : State :=
  match initCheck o s with
  | .error e => raiseErr e s
  | .ok (eng, padm) => respond (okResponse 0 []) (initCommon dir eng padm o s)

/-- INIT_ENC (R201). -/
def execInitEnc (o : InitOps) (s : State) : Host.Outcome State Fault Refusal := .next (initWith .encrypt o s)

/-- INIT_DEC (R202). -/
def execInitDec (o : InitOps) (s : State) : Host.Outcome State Fault Refusal := .next (initWith .decrypt o s)

end Sys2Proof.Machine
end

