-- ==== Sys2Proof/Machine/Status.lean ====
section
/-! DEFINITION. GET_INFO and DISPOSE (44_commands.md R207, R208), legal in every state. -/

namespace Sys2Proof.Machine

/-- GET_INFO (R207): RESULT is the INFO word, and no state is written. -/
def execGetInfo (s : State) : Host.Outcome State Fault Refusal := .next (respond (okResponse s.infoWord []) s)

/-- DISPOSE (R208): ResetState. -/
def execDispose (s : State) : Host.Outcome State Fault Refusal := .next (respond (okResponse 0 []) (resetState s))

end Sys2Proof.Machine
end

