-- ==== Sys2Proof/Machine/Xform.lean ====
section
/-! DEFINITION. XFORM_BLOCK and XFORM_FINAL (44_commands.md R205, R206). -/

namespace Sys2Proof.Machine

/-- The checks of R205 in its order. -/
def xformBlockCheck (count ocap : Word) (payload : Bytes) (s : State) : Option Err :=
  if s.st = .idle then some .notConfigured
  else if s.st = .done then some .finished
  else if count.toNat = 0 ∨ count.toNat % s.bs.toNat ≠ 0 then some .count
  else if payload.length < count.toNat then some .inputShort
  else if ocap.toNat < count.toNat then some .outputShort
  else none

/-- The datapath of R205 on the input `D`: pass-through, or, in lookahead mode, release the held block, transform all
but the last block and hold that one. -/
def blockTransform (D : Bytes) (s : State) : Bytes × State :=
  if s.laMode then
    let cut := D.length - s.bs.toNat
    let held := release s
    let own := xorKs (D.take cut) held.2
    (held.1 ++ own.1, hold (D.drop cut) own.2)
  else xorKs D s

/-- XFORM_BLOCK (R205). -/
def execXformBlock (count ocap : Word) (payload : Bytes) (s : State) : Host.Outcome State Fault Refusal :=
  match xformBlockCheck count ocap payload s with
  | some e => .next (raiseErr e s)
  | none =>
    let r := blockTransform (payloadRead payload 0 count.toNat) s
    .next (finish r.1 r.2)

/-- The checks of R206 in its order. There is no alignment check and no output-capacity check (R55, R74). -/
def xformFinalCheck (count : Word) (payload : Bytes) (s : State) : Option Err :=
  if s.st = .idle then some .notConfigured
  else if s.st = .done then some .finished
  else if payload.length < count.toNat then some .inputShort
  else none

/-- The encrypt branch of R206: `XorKs(Pad(PADM, in, BS))`. -/
def finalEncrypt (D : Bytes) (s : State) : Bytes × State :=
  let P := pad s.padm D s.bs.toNat s
  xorKs P.1 P.2

/-- The decrypted tail of the lookahead branch of R206, `Release() ++ XorKs(in)`, and the state after the lookahead
buffer is cleared. -/
def finalTail (D : Bytes) (s : State) : Bytes × State :=
  let held := release s
  let own := xorKs D held.2
  (held.1 ++ own.1, clearLookahead own.2)

/-- The three branches of R206: encrypt, decrypt under None, decrypt with padding. -/
def finalTransform (D : Bytes) (s : State) : Except PadError Bytes × State :=
  match s.dir with
  | .encrypt => let r := finalEncrypt D s; (.ok r.1, r.2)
  | .decrypt =>
    if s.padm = .noPad then
      let r := xorKs D s
      (.ok r.1, r.2)
    else
      let r := finalTail D s
      (unpad s.padm r.1 s.bs.toNat, r.2)

/-- XFORM_FINAL (R206): `ST <- DONE` whether the padding check passes or not (R27, R238). -/
def execXformFinal (count : Word) (payload : Bytes) (s : State) : Host.Outcome State Fault Refusal :=
  match xformFinalCheck count payload s with
  | some e => .next (raiseErr e s)
  | none =>
    let r := finalTransform (payloadRead payload 0 count.toNat) s
    match r.1 with
    | .error d => .next (raiseErr (.pad d) { r.2 with st := .done })
    | .ok out => .next (finish out { r.2 with st := .done })

end Sys2Proof.Machine
end

