-- ==== Sys2Proof/Machine/Dispatch.lean ====
section
/-! DEFINITION. The case of R200's dispatch: one arm per command, each one direct call of its meaning. -/

namespace Sys2Proof.Machine

def exec (i : Instr) (s : State) : Host.Outcome State Fault Refusal :=
  match i with
  | .initEnc o => Sys2Proof.Machine.execInitEnc o s
  | .initDec o => Sys2Proof.Machine.execInitDec o s
  | .xformBlock count ocap payload => Sys2Proof.Machine.execXformBlock count ocap payload s
  | .xformFinal count payload => Sys2Proof.Machine.execXformFinal count payload s
  | .getInfo => Sys2Proof.Machine.execGetInfo s
  | .dispose => Sys2Proof.Machine.execDispose s

end Sys2Proof.Machine
end

