-- ==== Sys2Proof/Machine/Step.lean ====
section
/-! DEFINITION. One step of the machine: one request from outside, performed whole (00_scope.md R5, 20_memory.md
R56). -/

namespace Sys2Proof.Machine

/-- One step. With nothing waiting the block holds its state (R240, R246). A hardware reset is ResetState, with no response
(R260). A record that is no command is answered
with ERR_ILLEGAL and changes no register (R80, R81); a command runs (R200). -/
def step (s : State) : Host.Outcome State Fault Refusal :=
  match takeRequest s with
  | none => .next s
  | some (.hardwareReset, t) => .next (resetState t)
  | some (.command c, t) =>
    match decode c with
    | .error e => .next (raiseErr (Err.ofDecode e) t)
    | .ok i => exec i t

/-- `s` with the row's command as the one the host issues next; what waits stays behind it. -/
def State.withFetchWord (s : State) (nbits w : Nat) : State :=
  { s with inbox := .command (commandOfBits nbits w) :: s.inbox }

end Sys2Proof.Machine
end

