-- ==== Sys2Proof/Safety.lean ====
section
/-! DEFINITION. What counts as a safe state and what a host sees of a run: the invariants of 10_state.md R41 and of the
register rules R31 to R35, the host sequences of R87, and the registers a response may depend on. -/

namespace Sys2Proof.Machine

/-- R41 (a): in IDLE "every row of R40's table except `A` is zero", that is, ResetState would change nothing. -/
def State.IdleZero (s : State) : Prop := s.st = .idle → resetState s = s

/-- R41 (b), R33: a block is held only by an active, padded decrypt. -/
def State.HeldLegal (s : State) : Prop :=
  s.laValid = true → s.st = .active ∧ s.dir = .decrypt ∧ s.padm ≠ .noPad

/-- R41 (c), R34, with M's wrap mod 2^64 (R182): while ACTIVE, M is a multiple of BS, reduced mod 2^64. -/
def State.PositionAligned (s : State) : Prop :=
  s.st = .active → ∃ k : Nat, s.m = BitVec.ofNat 64 (k * s.bs.toNat)

/-- R41 (d), R25: the RC4 table of an active RC4 transform is a permutation of 0..255. -/
def Rc4.IsPermutation (S : Vector Byte 256) : Prop := S.toList.Perm ((List.range 256).map (BitVec.ofNat 8))

/-- R41 (d). It holds in DONE too, since a draw only swaps (R132). -/
def State.TableLegal (s : State) : Prop := s.st ≠ .idle → s.eng = .rc4 → Rc4.IsPermutation s.rc4.s

/-- R31: BS is 16 under Rabbit and in 1..32 under RC4; it is 0 only in IDLE. -/
def State.BlockSizeLegal (s : State) : Prop :=
  s.st ≠ .idle →
    (s.eng = .rabbit → s.bs.toNat = 16) ∧ (s.eng = .rc4 → 1 ≤ s.bs.toNat ∧ s.bs.toNat ≤ 32)

/-- R35: "The registers of the other engine stay at their reset value". -/
def State.OtherEngineZero (s : State) : Prop :=
  (s.eng = .rabbit → s.rc4 = Rc4.reset) ∧ (s.eng = .rc4 → s.rabbit = Rabbit.reset)

/-- R32, and 93_implementation_defined.md U12: the bytes of LA_BUF at BS or above are zero, and all are while nothing
is held. -/
def State.BufferZero (s : State) : Prop :=
  ∀ k : Fin 32, (s.bs.toNat ≤ k.val ∨ s.laValid = false) → s.laBuf[k] = 0

/-- R6: a model is instantiated with a minimum of 1 to 5 bytes. -/
def State.ParameterLegal (s : State) : Prop := 1 ≤ s.rc4MinKeyBytes ∧ s.rc4MinKeyBytes ≤ Config.rc4MinKeyDefault

/-- The invariants that hold "between any two commands, from reset onward" (R41), with the register rules they rest
on. -/
structure State.Inv (s : State) : Prop where
  idleZero : s.IdleZero
  heldLegal : s.HeldLegal
  positionAligned : s.PositionAligned
  tableLegal : s.TableLegal
  blockSizeLegal : s.BlockSizeLegal
  otherEngineZero : s.OtherEngineZero
  bufferZero : s.BufferZero
  parameterLegal : s.ParameterLegal

/-- The registers of the block (R20) are the same in two states: only the model's own fields may differ. -/
def SameRegisters (s t : State) : Prop :=
  t.rabbit = s.rabbit ∧ t.rc4 = s.rc4 ∧ t.st = s.st ∧ t.dir = s.dir ∧ t.eng = s.eng ∧ t.padm = s.padm ∧ t.bs = s.bs ∧
    t.laBuf = s.laBuf ∧ t.laValid = s.laValid ∧ t.m = s.m

/-- The registers that GET_INFO reports (R36), and no others, are the same in two states. -/
def SameVisible (s t : State) : Prop :=
  t.st = s.st ∧ t.dir = s.dir ∧ t.laValid = s.laValid ∧ t.eng = s.eng ∧ t.padm = s.padm ∧ t.bs = s.bs

/-- The conditions under which R203 lets an INIT with ENG = 0 through, with the padding mode its PADM field selects. -/
def RabbitInitLegal (o : InitOps) (padm : PadMode) (s : State) : Prop :=
  s.st = .idle ∧ o.eng = 0 ∧ o.padm = padm.code ∧ o.chm = 0 ∧ o.keylen = 16 ∧ (o.ivlen = 0 ∨ o.ivlen = 8) ∧
    (o.bsz = 0 ∨ o.bsz = 16) ∧ 16 + o.ivlen.toNat ≤ o.payload.length

/-- The conditions under which R203 lets an INIT with ENG = 1 through, with the padding mode its PADM field selects. -/
def Rc4InitLegal (o : InitOps) (padm : PadMode) (s : State) : Prop :=
  s.st = .idle ∧ o.eng = 1 ∧ o.padm = padm.code ∧ o.chm = 0 ∧ o.keylen ≠ 0 ∧ s.rc4MinKeyBytes ≤ o.keylen.toNat ∧
    o.keylen.toNat ≤ 32 ∧ o.bsz.toNat ≤ 32 ∧ o.keylen.toNat + o.ivlen.toNat ≤ o.payload.length

/-- Decoded commands performed in order (R58), each on the state the one before it leaves. -/
def execAll : List Instr → State → Host.Outcome State Fault Refusal
  | [], s => .next s
  | i :: is, s =>
    match exec i s with
    | .next t => execAll is t
    | .fault f => .fault f
    | .refused r => .refused r

/-- A host sequence of XFORM_BLOCK commands, one per chunk, each with room for its output. -/
def blockCommands (chunks : List Bytes) : List Instr :=
  chunks.map fun D => .xformBlock (BitVec.ofNat 32 D.length) (BitVec.ofNat 32 D.length) D

/-- The XFORM_FINAL of a whole tail. -/
def finalCommand (D : Bytes) : Instr := .xformFinal (BitVec.ofNat 32 D.length) D

/-- R87: `encrypt(P)` and `decrypt(C)` after their INIT: "zero or more `XFORM_BLOCK` and then one `XFORM_FINAL`". -/
def streamCommands (chunks : List Bytes) (tail : Bytes) : List Instr := blockCommands chunks ++ [finalCommand tail]

/-- The concatenated outputs of the responses a run has added to the outbox (R87). -/
def newOutput (s t : State) : Bytes := ((t.outbox.drop s.outbox.length).map Response.out).flatten

/-- A run from `s` to `t` has returned `n` responses, and each of them is a success (R82, R83). -/
def AllSucceed (n : Nat) (s t : State) : Prop :=
  t.outbox.length = s.outbox.length + n ∧ ∀ r ∈ t.outbox.drop s.outbox.length, r.status = 0

/-- `i` is an XFORM_FINAL. -/
def IsFinal (i : Instr) : Prop := ∃ count payload, i = .xformFinal count payload

/-- The 256-bit number whose 32-bit digits, least significant first, are eight words (the Rabbit counters as one
number). -/
def wideValue (v : Vector Word 8) : Nat :=
  v[0].toNat + 2 ^ 32 * v[1].toNat + 2 ^ 64 * v[2].toNat + 2 ^ 96 * v[3].toNat + 2 ^ 128 * v[4].toNat +
    2 ^ 160 * v[5].toNat + 2 ^ 192 * v[6].toNat + 2 ^ 224 * v[7].toNat

/-- A chunk an XFORM_BLOCK accepts under the block size `B` (R55): a positive multiple of it. -/
def ChunkLegal (B : Nat) (D : Bytes) : Prop := D ≠ [] ∧ D.length % B = 0

/-- Performing `i` in `s` answers the next state `t`, and the response it returns is `r` (R82). -/
def Answers (i : Instr) (s t : State) (r : Response) : Prop :=
  exec i s = .next t ∧ t.outbox = s.outbox ++ [r] ∧ t.inbox = s.inbox

end Sys2Proof.Machine
end

