-- ==== Sys2Proof/WellFormed.lean ====
section
/-! DEFINITION. Which decoded commands use only operand values that the encoding tables define: the checks of a
command that no state can change. An ill-formed command is still a command: it decodes, and the machine answers it
with the error of R203, R205 or R206, whatever its state. -/

namespace Sys2Proof

/-- R76: "The `ENG` field takes 0 for the Rabbit engine and 1 for the RC4 engine"; 2 to 15 are reserved. -/
def InitOps.engineDefined (o : InitOps) : Bool := o.eng.toNat ≤ 1

/-- R77: `PADM` takes 0 to 4; 5 to 15 are rejected. -/
def InitOps.paddingDefined (o : InitOps) : Bool := o.padm.toNat ≤ 4

/-- R79: 0 is the only supported chaining mode. -/
def InitOps.modeDefined (o : InitOps) : Bool := o.chm == 0

/-- The opcode table's PAYLOAD field of the INIT rows: "PLEN >= KEYLEN + IVLEN". -/
def InitOps.payloadCovers (o : InitOps) : Bool := o.keylen.toNat + o.ivlen.toNat ≤ o.payload.length

/-- The opcode table's PAYLOAD field of the XFORM rows: "PLEN >= COUNT". -/
def countCovered (count : Word) (payload : Bytes) : Bool := count.toNat ≤ payload.length

/-- The operands of an INIT use defined values and the payload covers them. -/
def InitOps.wellFormed (o : InitOps) : Bool :=
  o.engineDefined && o.paddingDefined && o.modeDefined && o.payloadCovers

/-- A well-formed command: every operand has a value its encoding table defines, and the payload holds every byte
the command names. -/
def Instr.wellFormed : Instr → Bool
  | .initEnc o => o.wellFormed
  | .initDec o => o.wellFormed
  | .xformBlock count _ payload => countCovered count payload
  | .xformFinal count payload => countCovered count payload
  | .getInfo => true
  | .dispose => true

end Sys2Proof
end

