-- ==== Sys2Proof/Certificates/Slice0/Obligations.lean ====
section
/-! DEFINITION. The statements for the provers. Each docstring names the rules it formalises; where a statement rests on
a choice of the model, the docstring names the log entry. -/

open Sys2Proof Sys2Proof.Machine

/-! ## Encoding -/

/-- R70 to R75: decoding an encoded command gives it back, with every operand at every value its field admits and any
payload, well-formed or not. -/
def Obligations.DecodeOfEncode : Prop := ∀ i : Instr, decode (encode i) = .ok i

/-- R70 to R75, R80: encoding a decoded record gives every word back that the command uses. -/
def Obligations.EncodeOfDecode : Prop :=
  ∀ (c : Command) (i : Instr), decode c = .ok i →
    (encode i).cmd = c.cmd ∧
      match i with
      | .initEnc _ => (encode i).arg0 = c.arg0 ∧ (encode i).payload = c.payload
      | .initDec _ => (encode i).arg0 = c.arg0 ∧ (encode i).payload = c.payload
      | .xformBlock _ _ _ => encode i = c
      | .xformFinal _ _ => (encode i).arg0 = c.arg0 ∧ (encode i).payload = c.payload
      | .getInfo => True
      | .dispose => True

/-- R71, R80, R200: which records are no command, by the numbers of their words. -/
def Obligations.DecodeRefusesExactly : Prop :=
  ∀ c : Command,
    (decode c = .error .opcode ↔ c.cmd.toNat / 2 ^ 24 ∉ [0x01, 0x02, 0x10, 0x11, 0x20, 0x30]) ∧
    (decode c = .error .reserved ↔
      (c.cmd.toNat / 2 ^ 24 ∈ [0x01, 0x02] ∧ c.arg0.toNat / 2 ^ 8 % 2 ^ 8 ≠ 0) ∨
      (c.cmd.toNat / 2 ^ 24 ∈ [0x10, 0x11, 0x20, 0x30] ∧ c.cmd.toNat % 2 ^ 24 ≠ 0))

/-- R72, R73, R74: the operands a decoded record has, by the numbers of its words. -/
def Obligations.DecodedOperandFields : Prop :=
  ∀ (c : Command) (i : Instr), decode c = .ok i →
    match i with
    | .initEnc o | .initDec o =>
      o.eng.toNat = c.cmd.toNat / 2 ^ 20 % 2 ^ 4 ∧ o.padm.toNat = c.cmd.toNat / 2 ^ 16 % 2 ^ 4 ∧
        o.bsz.toNat = c.cmd.toNat / 2 ^ 8 % 2 ^ 8 ∧ o.chm.toNat = c.cmd.toNat % 2 ^ 8 ∧
        o.keylen.toNat = c.arg0.toNat % 2 ^ 8 ∧ o.ivlen.toNat = c.arg0.toNat / 2 ^ 16 ∧ o.payload = c.payload
    | .xformBlock count ocap payload => count = c.arg0 ∧ ocap = c.arg1 ∧ payload = c.payload
    | .xformFinal count payload => count = c.arg0 ∧ payload = c.payload
    | .getInfo => True
    | .dispose => True

/-- R80: "A word the command does not use is ignored entirely, whatever its value". -/
def Obligations.UnusedWordsIgnored : Prop :=
  ∀ (c : Command) (arg0 arg1 : Word) (payload : Bytes),
    (c.cmd.toNat / 2 ^ 24 ∈ [0x01, 0x02, 0x11] → decode { c with arg1 := arg1 } = decode c) ∧
    (c.cmd.toNat / 2 ^ 24 ∈ [0x20, 0x30] →
      decode { c with arg0 := arg0, arg1 := arg1, payload := payload } = decode c)

/-- 30_encoding.md section 7: the encoding examples, as words. -/
def Obligations.EncodingExamples : Prop :=
  decode ⟨0x01010000, 0x00080010, 0, []⟩ =
      .ok (.initEnc { eng := 0, padm := 1, bsz := 0, chm := 0, keylen := 16, ivlen := 8, payload := [] }) ∧
    decode ⟨0x02111000, 0x00000006, 0, []⟩ =
      .ok (.initDec { eng := 1, padm := 1, bsz := 16, chm := 0, keylen := 6, ivlen := 0, payload := [] }) ∧
    decode ⟨0x10000000, 0x20, 0x20, []⟩ = .ok (.xformBlock 32 32 []) ∧
    decode ⟨0x11000000, 0, 0xFFFFFFFF, []⟩ = .ok (.xformFinal 0 []) ∧
    decode ⟨0x20000000, 7, 8, [9]⟩ = .ok .getInfo ∧
    decode ⟨0x30000000, 7, 8, [9]⟩ = .ok .dispose ∧
    decode ⟨0x10000001, 0, 0, []⟩ = .error .reserved ∧
    decode ⟨0x40000000, 0, 0, []⟩ = .error .opcode

/-! ## The step -/

/-- R5, R62, R200: with a command waiting whose record decodes, the step is the command's meaning, on the state from
which the command has been taken; what follows waits behind it. -/
def Obligations.StepRunsDecodedCommand : Prop :=
  ∀ (s : State) (c : Command) (rest : List Request) (i : Instr),
    s.inbox = .command c :: rest → decode c = .ok i → step s = exec i { s with inbox := rest }

/-- R27, R260: a hardware reset leaves every register at its reset value and returns no response. R240, R246: "the block
acts only when a command arrives"; "between commands it simply holds its state". That both are steps of the machine is
the model's choice (assumptions 1 and 2). -/
def Obligations.StepWithoutCommand : Prop :=
  ∀ (s : State) (rest : List Request),
    (s.inbox = [] → step s = .next s) ∧
    (s.inbox = .hardwareReset :: rest →
      step s = .next
        { State.reset with
          rc4MinKeyBytes := s.rc4MinKeyBytes, entropyPos := s.entropyPos, inbox := rest, outbox := s.outbox })

/-- R80, R81, R231: a record that is no command is answered with ERR_ILLEGAL and has no effect. -/
def Obligations.IllegalRecordIsAnswered : Prop :=
  ∀ (s : State) (c : Command) (rest : List Request), s.inbox = .command c :: rest →
    (c.cmd.toNat / 2 ^ 24 ∉ [0x01, 0x02, 0x10, 0x11, 0x20, 0x30] →
      step s = .next { s with inbox := rest, outbox := s.outbox ++ [⟨1, 1, 0, []⟩] }) ∧
    ((c.cmd.toNat / 2 ^ 24 ∈ [0x01, 0x02] ∧ c.arg0.toNat / 2 ^ 8 % 2 ^ 8 ≠ 0) ∨
        (c.cmd.toNat / 2 ^ 24 ∈ [0x10, 0x11, 0x20, 0x30] ∧ c.cmd.toNat % 2 ^ 24 ≠ 0) →
      step s = .next { s with inbox := rest, outbox := s.outbox ++ [⟨1, 2, 0, []⟩] })

/-- R5, R82: "Every command returns exactly one response record", before the next command is accepted. -/
def Obligations.OneResponsePerCommand : Prop :=
  ∀ (s : State) (c : Command) (rest : List Request), s.inbox = .command c :: rest →
    ∃ t r, step s = .next t ∧ t.outbox = s.outbox ++ [r] ∧ t.inbox = rest

/-- R58: a run of the machine over encoded commands performs them in order, each on the state the one before it
leaves. -/
def Obligations.RunPerformsCommandsInOrder : Prop :=
  ∀ (is : List Instr) (s : State),
    Host.Core.run Sys2Proof.core is.length { s with inbox := is.map fun i => .command (encode i) } = execAll is { s with inbox := [] }

/-! ## Responses and errors -/

/-- R82, R83, R84, R236: the response records there are. That a transform command's RESULT is |OUT| is said where
|OUT| fits in 32 bits, the model's reading of the u32 (assumption 5). -/
def Obligations.ResponseRecordsListed : Prop :=
  ∀ (i : Instr) (s t : State) (r : Response), Answers i s t r →
    (r.status = 0 ∧ r.detail = 0 ∧
        match i with
        | .xformBlock _ _ _ | .xformFinal _ _ => r.out.length < 2 ^ 32 → r.result.toNat = r.out.length
        | .getInfo => r.result = s.infoWord ∧ r.out = []
        | .initEnc _ | .initDec _ | .dispose => r.result = 0 ∧ r.out = []) ∨
      (r.result = 0 ∧ r.out = [] ∧
        (r.status, r.detail) ∈
          ([(2, 1), (2, 2), (2, 3), (3, 1), (3, 2), (3, 3), (3, 4), (3, 5), (3, 6), (3, 7), (3, 8), (4, 1), (4, 2),
            (4, 3), (5, 1), (5, 2), (5, 3), (5, 4)] : List (Byte × Byte)))

/-- R237: "Every error except ERR_PADDING is detected before the command writes any state, and leaves every register
exactly as it was". `r` is the response of the step that takes the command `c`. -/
def Obligations.RejectedCommandHasNoEffect : Prop :=
  ∀ (s t : State) (c : Command) (rest : List Request) (r : Response),
    s.inbox = .command c :: rest → step s = .next t → t.outbox = s.outbox ++ [r] → r.status ≠ 0 → r.status ≠ 5 →
    t = { s with inbox := rest, outbox := s.outbox ++ [r] }

/-- R235, R238: which command raises ERR_PADDING, when, and the state it leaves. -/
def Obligations.PaddingFailureLeavesDone : Prop :=
  ∀ (i : Instr) (s t : State) (r : Response), Answers i s t r → r.status = 5 →
    ∃ count payload, i = .xformFinal count payload ∧ s.st = .active ∧ s.dir = .decrypt ∧ s.padm ≠ .noPad ∧
      t.st = .done ∧ t.laValid = false ∧ t.laBuf = Vector.replicate 32 0 ∧ r.result = 0 ∧ r.out = [] ∧
      t.m = s.m + BitVec.ofNat 64 ((if s.laValid then s.heldBlock.length else 0) + count.toNat)

/-- R27, R200's table: which commands each value of ST accepts, and the moves of ST. -/
def Obligations.LifeCycle : Prop :=
  ∀ (i : Instr) (s t : State) (r : Response), Answers i s t r →
    match i with
    | .initEnc _ | .initDec _ =>
      (s.st ≠ .idle ↔ (r.status, r.detail) = (2, 3)) ∧ (s.st = .idle → r.status ≠ 2) ∧
        t.st = if r.status = 0 then .active else s.st
    | .xformBlock _ _ _ =>
      (s.st = .idle ↔ (r.status, r.detail) = (2, 1)) ∧ (s.st = .done ↔ (r.status, r.detail) = (2, 2)) ∧
        (s.st = .active → r.status ≠ 2) ∧ t.st = s.st
    | .xformFinal _ _ =>
      (s.st = .idle ↔ (r.status, r.detail) = (2, 1)) ∧ (s.st = .done ↔ (r.status, r.detail) = (2, 2)) ∧
        (s.st = .active → r.status ≠ 2) ∧ t.st = if r.status = 0 ∨ r.status = 5 then .done else s.st
    | .getInfo => (r.status, r.detail) = (0, 0) ∧ t.st = s.st
    | .dispose => (r.status, r.detail) = (0, 0) ∧ t.st = .idle

/-- R180, R28 to R31: the configuration registers are written by INIT and DISPOSE alone. R7, R155: entropy is drawn by a
successful XFORM_FINAL that encrypts under ISO10126, and by no other command. The parameter of R6 and the entropy position
are fields of the model (assumptions 3 and 4); no command writes the former. -/
def Obligations.ConfigurationIsFixed : Prop :=
  ∀ (i : Instr) (s t : State) (r : Response), Answers i s t r →
    t.rc4MinKeyBytes = s.rc4MinKeyBytes ∧
    (¬(IsFinal i ∧ r.status = 0 ∧ s.dir = .encrypt ∧ s.padm = .iso10126) → t.entropyPos = s.entropyPos) ∧
    match i with
    | .initEnc _ | .initDec _ => s.st ≠ .idle → t.dir = s.dir ∧ t.eng = s.eng ∧ t.padm = s.padm ∧ t.bs = s.bs
    | .xformBlock _ _ _ | .xformFinal _ _ | .getInfo =>
      t.dir = s.dir ∧ t.eng = s.eng ∧ t.padm = s.padm ∧ t.bs = s.bs
    | .dispose => t.dir = .encrypt ∧ t.eng = .rabbit ∧ t.padm = .noPad ∧ t.bs = 0

/-! ## INIT_ENC and INIT_DEC -/

/-- R201, R202, R204, R114: a legal INIT with ENG = 0 completes, and this is the whole state it leaves. -/
def Obligations.RabbitInitCompletes : Prop :=
  ∀ (o : InitOps) (padm : PadMode) (s : State), RabbitInitLegal o padm s →
    let t (dir : Direction) : State :=
      { rabbit := Rabbit.reset.setup (o.payload.take 16)
          (if o.ivlen = 0 then none else some ((o.payload.drop 16).take 8))
        rc4 := Rc4.reset, st := .active, dir := dir, eng := .rabbit, padm := padm, bs := 16
        laBuf := Vector.replicate 32 0, laValid := false, m := 0
        rc4MinKeyBytes := s.rc4MinKeyBytes, entropyPos := s.entropyPos, inbox := s.inbox
        outbox := s.outbox ++ [⟨0, 0, 0, []⟩] }
    exec (.initEnc o) s = .next (t .encrypt) ∧ exec (.initDec o) s = .next (t .decrypt)

/-- R201, R202, R204, R130: a legal INIT with ENG = 1 completes, and this is the whole state it leaves. -/
def Obligations.Rc4InitCompletes : Prop :=
  ∀ (o : InitOps) (padm : PadMode) (s : State), Rc4InitLegal o padm s →
    let t (dir : Direction) : State :=
      { rabbit := Rabbit.reset, rc4 := Rc4.ksa (o.payload.take (o.keylen.toNat + o.ivlen.toNat))
        st := .active, dir := dir, eng := .rc4, padm := padm, bs := if o.bsz = 0 then 16 else o.bsz
        laBuf := Vector.replicate 32 0, laValid := false, m := 0
        rc4MinKeyBytes := s.rc4MinKeyBytes, entropyPos := s.entropyPos, inbox := s.inbox
        outbox := s.outbox ++ [⟨0, 0, 0, []⟩] }
    exec (.initEnc o) s = .next (t .encrypt) ∧ exec (.initDec o) s = .next (t .decrypt)

/-- R203, R239: the first failing check of an INIT is the error it reports. -/
def Obligations.InitChecksInOrder : Prop :=
  ∀ (o : InitOps) (s t : State) (r : Response), Answers (.initEnc o) s t r ∨ Answers (.initDec o) s t r →
    let bs := if o.bsz = 0 then 16 else o.bsz.toNat
    (r.status, r.detail) =
      (if s.st ≠ .idle then (2, 3)
      else if 1 < o.eng.toNat then (3, 7)
      else if o.keylen.toNat = 0 then (3, 1)
      else if o.payload.length < o.keylen.toNat + o.ivlen.toNat then (3, 8)
      else if o.eng.toNat = 0 ∧ o.keylen.toNat ≠ 16 then (3, 2)
      else if o.eng.toNat = 1 ∧ ¬(s.rc4MinKeyBytes ≤ o.keylen.toNat ∧ o.keylen.toNat ≤ 32) then (3, 2)
      else if o.eng.toNat = 0 ∧ o.ivlen.toNat ∉ [0, 8] then (3, 3)
      else if o.eng.toNat = 0 ∧ bs ≠ 16 then (3, 4)
      else if o.eng.toNat = 1 ∧ ¬(1 ≤ bs ∧ bs ≤ 32) then (3, 4)
      else if o.chm.toNat ≠ 0 then (3, 5)
      else if 4 < o.padm.toNat then (3, 6)
      else (0, 0))

/-- R76, R77, R79, and the opcode table's PAYLOAD fields: an ill-formed INIT or XFORM_FINAL is answered with an error in
every state. -/
def Obligations.IllFormedCommandIsRejected : Prop :=
  ∀ (i : Instr) (s t : State) (r : Response), i.wellFormed = false → Answers i s t r →
    r.status ≠ 0 ∧ r.out = [] ∧ SameRegisters s t

/-! ## The RC4 engine -/

/-- R25, R131, R132: after key scheduling the table is a permutation of 0..255 and both cursors are 0, and every PRGA
call keeps it a permutation, and so does a draw. -/
def Obligations.TableStaysPermutation : Prop :=
  (∀ K : Bytes, Rc4.IsPermutation (Rc4.ksa K).s ∧ (Rc4.ksa K).i = 0 ∧ (Rc4.ksa K).j = 0) ∧
    ∀ (n : Nat) (r : Rc4), Rc4.IsPermutation r.s → Rc4.IsPermutation r.prga.2.s ∧ Rc4.IsPermutation (r.draw n).2.s

/-- R131: "Key bytes past index 255 of `K'` never affect `S`". -/
def Obligations.KsaReadsFirst256Bytes : Prop :=
  ∀ K K' : Bytes, 256 ≤ K.length → 256 ≤ K'.length → K.take 256 = K'.take 256 → Rc4.ksa K = Rc4.ksa K'

/-- R132: the registers and the byte of one PRGA call, entry by entry. -/
def Obligations.PrgaStep : Prop :=
  ∀ r : Rc4,
    let i : Byte := r.i + 1
    let j : Byte := r.j + r.s[i.toNat]
    r.prga.2.i = i ∧ r.prga.2.j = j ∧
      (∀ k : Fin 256, r.prga.2.s[k] =
        if k.val = i.toNat then r.s[j.toNat] else if k.val = j.toNat then r.s[i.toNat] else r.s[k]) ∧
      r.prga.1 = r.prga.2.s[(r.s[i.toNat] + r.s[j.toNat]).toNat]

/-- R132, R133, R134: draws of any sizes return consecutive bytes, none is discarded, and the cursor I counts them
mod 256. -/
def Obligations.Rc4DrawsAreConsecutive : Prop :=
  ∀ (m n : Nat) (r : Rc4),
    r.draw (m + n) = ((r.draw m).1 ++ ((r.draw m).2.draw n).1, ((r.draw m).2.draw n).2) ∧
      (r.draw n).1.length = n ∧ (r.draw n).2.i = r.i + BitVec.ofNat 8 n

/-! ## The Rabbit engine -/

/-- R104: the chained carry makes CounterUpdate one addition of 256-bit numbers with a carry in and a carry out. `X` and
`A` are not written. -/
def Obligations.CounterUpdateIsWideAddition : Prop :=
  ∀ r : Rabbit,
    wideValue r.counterUpdate.c + 2 ^ 256 * r.counterUpdate.carry.toNat =
        wideValue r.c + wideValue rabbitA + r.carry.toNat ∧
      r.counterUpdate.x = r.x ∧ r.counterUpdate.a.words = rabbitA

/-- R104 (2), and 90_conflicts.md C6: "Its test `C_new <= C_old` equals `t[32] = 1` here". -/
def Obligations.CarryTestsAgree : Prop :=
  ∀ (c : Word) (j : Fin 8) (carry : Bool),
    laneCarry (laneSum c rabbitA[j] carry) = decide (laneWord (laneSum c rabbitA[j] carry) ≤ c)

/-- R105: g in exact arithmetic. -/
def Obligations.SquaringFeedback : Prop :=
  ∀ u v : Word,
    let t := (u.toNat + v.toNat) % 2 ^ 32
    (rabbitG u v).toNat = (t * t % 2 ^ 32) ^^^ (t * t / 2 ^ 32)

/-- R106: the eight written-out formulas, all from the old `X`; `C` and `CARRY` are unchanged. -/
def Obligations.NextStateFormulas : Prop :=
  ∀ r : Rabbit,
    let G (i : Fin 8) : Word := rabbitG r.x[i] r.c[i]
    r.nextState.x =
        #v[G 0 + (G 7).rotateLeft 16 + (G 6).rotateLeft 16, G 1 + (G 0).rotateLeft 8 + G 7,
           G 2 + (G 1).rotateLeft 16 + (G 0).rotateLeft 16, G 3 + (G 2).rotateLeft 8 + G 1,
           G 4 + (G 3).rotateLeft 16 + (G 2).rotateLeft 16, G 5 + (G 4).rotateLeft 8 + G 3,
           G 6 + (G 5).rotateLeft 16 + (G 4).rotateLeft 16, G 7 + (G 6).rotateLeft 8 + G 5] ∧
      r.nextState.c = r.c ∧ r.nextState.carry = r.carry

/-- R54, R108: byte `4w + b` of the output block is bits `[8b+7 : 8b]` of output word `S[w]`. -/
def Obligations.OutputBytesOfWords : Prop :=
  ∀ (r : Rabbit) (w b : Fin 4),
    let S : Vector Word 4 :=
      #v[r.x[0] ^^^ (r.x[5] >>> 16) ^^^ (r.x[3] <<< 16), r.x[2] ^^^ (r.x[7] >>> 16) ^^^ (r.x[5] <<< 16),
         r.x[4] ^^^ (r.x[1] >>> 16) ^^^ (r.x[7] <<< 16), r.x[6] ^^^ (r.x[3] >>> 16) ^^^ (r.x[1] <<< 16)]
    r.extractOutput.length = 16 ∧ (r.extractOutput.getD (4 * w.val + b.val) 0).toNat = S[w].toNat / 2 ^ (8 * b.val) % 2 ^ 8

/-- R54, R110: key byte `4i + b` is bits `[8b+7 : 8b]` of key word `k[i]`. -/
def Obligations.KeyWordsAreLittleEndian : Prop :=
  ∀ (key : Bytes) (i b : Fin 4), (keyWords key)[i].toNat / 2 ^ (8 * b.val) % 2 ^ 8 = (key.getD (4 * i.val + b.val) 0).toNat

/-- R111: the load of X and C in RFC 4503's 16-bit form, with `K^i` the 16-bit subkeys and indices mod 8. `CARRY` is not
written. -/
def Obligations.InitialLoadBySubkeys : Prop :=
  ∀ (k : Vector Word 4) (r : Rabbit) (j : Fin 8),
    let K (i : Fin 8) : BitVec 16 := k[halfIndex i].extractLsb' (16 * (i.val % 2)) 16
    (r.initialLoad k).x[j] = (if j.val % 2 = 0 then K (j + 1) ++ K j else K (j + 5) ++ K (j + 4)) ∧
      (r.initialLoad k).c[j] = (if j.val % 2 = 0 then K (j + 4) ++ K (j + 5) else K j ++ K (j + 1)) ∧
      (r.initialLoad k).carry = r.carry

/-- R112, R113: KeySetup clears the carry, runs four rounds on the loaded state and re-XORs the counters; what the
registers held before has no part in it. IvSetup XORs the expanded IV into the counters alone and runs four rounds, the
carry kept; so an all-zero IV runs four rounds of the state KeySetup left. -/
def Obligations.SetupRegisters : Prop :=
  ∀ (key iv : Bytes) (r : Rabbit),
    let i0 := leWord iv 0
    let i2 := leWord iv 1
    let iv32 : Vector Word 4 :=
      #v[i0, i2.extractLsb' 16 16 ++ i0.extractLsb' 16 16, i2, i2.extractLsb' 0 16 ++ i0.extractLsb' 0 16]
    let four := ({ Rabbit.reset.initialLoad (keyWords key) with carry := false } : Rabbit).iterate.iterate.iterate.iterate
    (r.keySetup key).x = four.x ∧ (r.keySetup key).carry = four.carry ∧
      (∀ j : Fin 8, (r.keySetup key).c[j] = four.c[j] ^^^ four.x[j + 4]) ∧
      r.ivSetup iv =
        ({ r with c := Vector.ofFn fun j : Fin 8 => r.c[j] ^^^ iv32[j.val % 4] } : Rabbit).iterate.iterate.iterate.iterate ∧
      r.ivSetup (zeros 8) = r.iterate.iterate.iterate.iterate

/-- R115, R116: the keystream is one fixed byte sequence, and draws whose sizes before the last are multiples of 16
return consecutive bytes of it; the registers are those of ceil(n / 16) rounds. -/
def Obligations.RabbitDrawsAreConsecutive : Prop :=
  ∀ (m n : Nat) (r : Rabbit),
    (m % 16 = 0 → r.draw (m + n) = ((r.draw m).1 ++ ((r.draw m).2.draw n).1, ((r.draw m).2.draw n).2)) ∧
      (r.draw n).1.length = n ∧ (r.draw n).2 = Rabbit.iterates ((n + 15) / 16) r ∧
      ∀ p, p < n →
        (r.draw n).1.getD p 0 = ((Rabbit.iterates (p / 16) r).nextBlock.1).getD (p % 16) 0

/-! ## Padding -/

/-- R150, R156: the padded lengths. -/
def Obligations.PaddedLengths : Prop :=
  ∀ (mode : PadMode) (P : Bytes) (B : Nat) (s : State), 1 ≤ B →
    let L := P.length
    let padded := (pad mode P B s).1.length
    (mode = .noPad → padded = L) ∧ (mode ≠ .noPad → padded % B = 0) ∧
      (mode = .pkcs7 ∨ mode = .ansix923 ∨ mode = .iso10126 → padded = L + (B - L % B) ∧ L < padded ∧ padded ≤ L + B) ∧
      (mode = .zeros → padded = (L + B - 1) / B * B)

/-- R166: unpadding a padded text gives it back; under Zeros exactly when the text is empty or does not end in 0x00. -/
def Obligations.UnpadInvertsPad : Prop :=
  ∀ (mode : PadMode) (P : Bytes) (B : Nat) (s : State), 1 ≤ B → B ≤ 32 →
    (mode ≠ .zeros → unpad mode (pad mode P B s).1 B = .ok P) ∧
      (unpad .zeros (pad .zeros P B s).1 B = .ok P ↔ P = [] ∨ P.getLast? ≠ some 0)

/-- R157, R160, R161, R162, R163: the checks of the count modes, in their order, byte by byte. -/
def Obligations.UnpadChecksInOrder : Prop :=
  ∀ (D : Bytes) (B : Nat), 1 ≤ B →
    let N := (D.getD (D.length - 1) 0).toNat
    ∀ mode, mode = .pkcs7 ∨ mode = .ansix923 ∨ mode = .iso10126 →
      (D.length % B ≠ 0 ∨ D = [] → unpad mode D B = .error .length) ∧
      (D.length % B = 0 ∧ D ≠ [] → N < 1 ∨ B < N → unpad mode D B = .error .value) ∧
      (D.length % B = 0 ∧ D ≠ [] → 1 ≤ N ∧ N ≤ B →
        let bad (i : Nat) : Prop :=
          (mode = .pkcs7 ∧ (D.getD i 0).toNat ≠ N) ∨ (mode = .ansix923 ∧ i ≠ D.length - 1 ∧ D.getD i 0 ≠ 0)
        ((∃ i, D.length - N ≤ i ∧ i < D.length ∧ bad i) →
          unpad mode D B = .error (if mode = .pkcs7 then .bytes else .nonzero)) ∧
        ((∀ i, D.length - N ≤ i → i < D.length → ¬bad i) → unpad mode D B = .ok (D.take (D.length - N))))

/-- R157, R159: Zeros trims the trailing 0x00 bytes, at most one block of them. -/
def Obligations.ZerosTrimsAtMostOneBlock : Prop :=
  ∀ (D : Bytes) (B : Nat), 1 ≤ B →
    (D.length % B ≠ 0 → unpad .zeros D B = .error .length) ∧
    (D.length % B = 0 → ∃ k, unpad .zeros D B = .ok (D.take (D.length - k)) ∧ k ≤ B ∧ k ≤ D.length ∧
      (∀ i, i < k → D.getD (D.length - 1 - i) 0 = 0) ∧
      (k = B ∨ k = D.length ∨ D.getD (D.length - 1 - k) 0 ≠ 0))

/-- R167: which corrupted last bytes of a valid PKCS7 text pass, that at most one does, and that with N = 2 no
single-bit flip does. -/
def Obligations.Pkcs7AcceptsOneCorruption : Prop :=
  ∀ (D Q : Bytes) (B : Nat), unpad .pkcs7 D B = .ok Q →
    let corrupt (v : Byte) : Bytes := D.dropLast ++ [v]
    let passes (v : Byte) : Prop := ∃ R, unpad .pkcs7 (corrupt v) B = .ok R
    (∀ v : Byte, v ≠ D.getLastD 0 →
      (passes v ↔ 1 ≤ v.toNat ∧ v.toNat ≤ B ∧ ∀ k, 1 ≤ k → k < v.toNat → D.getD (D.length - 1 - k) 0 = v)) ∧
    (∀ v w : Byte, v ≠ D.getLastD 0 → w ≠ D.getLastD 0 → passes v → passes w → v = w) ∧
    (D.getLastD 0 = 2 → ∀ bit, bit < 8 → ¬passes (2 ^^^ (1 <<< bit)))

/-! ## The transform commands -/

/-- R182: XorKs is its own inverse under equal keystream, keeps lengths, advances M, and writes nothing but the bound
engine and M. -/
def Obligations.XorKsIsItsOwnInverse : Prop :=
  ∀ (D : Bytes) (s : State),
    (xorKs (xorKs D s).1 s).1 = D ∧ (xorKs (xorKs D s).1 s).2 = (xorKs D s).2 ∧
      (xorKs D s).1.length = D.length ∧ (xorKs [] s) = ([], s) ∧
      (xorKs D s).2 = { s with
        rabbit := (xorKs D s).2.rabbit, rc4 := (xorKs D s).2.rc4, m := s.m + BitVec.ofNat 64 D.length } ∧
      (s.eng = .rabbit → (xorKs D s).2.rc4 = s.rc4) ∧ (s.eng = .rc4 → (xorKs D s).2.rabbit = s.rabbit)

/-- R205, R180, R182: XFORM_BLOCK in pass-through mode completes, and this is the whole state it leaves. -/
def Obligations.BlockPassThroughCompletes : Prop :=
  ∀ (count ocap : Word) (payload : Bytes) (s : State),
    s.st = .active → (s.dir = .encrypt ∨ s.padm = .noPad) → count.toNat ≠ 0 → count.toNat % s.bs.toNat = 0 →
    count.toNat ≤ payload.length → count ≤ ocap →
    exec (.xformBlock count ocap payload) s = .next
      { (ks count.toNat s).2 with
        m := s.m + count.setWidth 64
        outbox := s.outbox ++ [⟨0, 0, count, xorBytes (payload.take count.toNat) (ks count.toNat s).1⟩] }

/-- R205, R184, R185, R186: XFORM_BLOCK in lookahead mode with nothing held completes: it emits all but the last block,
which it holds. -/
def Obligations.BlockLookaheadUnprimedCompletes : Prop :=
  ∀ (count ocap : Word) (payload : Bytes) (s : State),
    s.st = .active → s.dir = .decrypt → s.padm ≠ .noPad → s.BlockSizeLegal → s.laValid = false →
    count.toNat ≠ 0 → count.toNat % s.bs.toNat = 0 → count.toNat ≤ payload.length → count ≤ ocap →
    let n := count.toNat - s.bs.toNat
    exec (.xformBlock count ocap payload) s = .next
      { (ks n s).2 with
        m := s.m + BitVec.ofNat 64 n
        laBuf := Vector.ofFn fun k : Fin 32 => if k.val < s.bs.toNat then payload.getD (n + k.val) 0 else s.laBuf[k]
        laValid := true
        outbox := s.outbox ++ [⟨0, 0, BitVec.ofNat 32 n, xorBytes (payload.take n) (ks n s).1⟩] }

/-- R205, R184, R185, R186: XFORM_BLOCK in lookahead mode with a block held completes: it emits the held block and all but
its own last block, with consecutive keystream, and holds the last. -/
def Obligations.BlockLookaheadPrimedCompletes : Prop :=
  ∀ (count ocap : Word) (payload : Bytes) (s : State),
    s.st = .active → s.dir = .decrypt → s.padm ≠ .noPad → s.BlockSizeLegal → s.laValid = true →
    count.toNat ≠ 0 → count.toNat % s.bs.toNat = 0 → count.toNat ≤ payload.length → count ≤ ocap →
    let n := count.toNat - s.bs.toNat
    exec (.xformBlock count ocap payload) s = .next
      { (ks count.toNat s).2 with
        m := s.m + count.setWidth 64
        laBuf := Vector.ofFn fun k : Fin 32 => if k.val < s.bs.toNat then payload.getD (n + k.val) 0 else 0
        laValid := true
        outbox := s.outbox ++
          [⟨0, 0, count, xorBytes (s.laBuf.toList.take s.bs.toNat ++ payload.take n) (ks count.toNat s).1⟩] }

/-- R205, R239: the first failing check of XFORM_BLOCK is the error it reports; when none fails it succeeds. -/
def Obligations.BlockChecksInOrder : Prop :=
  ∀ (count ocap : Word) (payload : Bytes) (s t : State) (r : Response),
    Answers (.xformBlock count ocap payload) s t r →
    (r.status, r.detail) =
      (if s.st = .idle then (2, 1)
      else if s.st = .done then (2, 2)
      else if count.toNat = 0 ∨ count.toNat % s.bs.toNat ≠ 0 then (4, 1)
      else if payload.length < count.toNat then (4, 2)
      else if ocap.toNat < count.toNat then (4, 3)
      else (0, 0))

/-- R206, R151 to R155: XFORM_FINAL of an encrypting transform completes: it transforms the padded tail, and this is the
whole state it leaves. The entropy position is a field of the model (assumption 4), and RESULT is free where |OUT| does not
fit in 32 bits (assumption 5). -/
def Obligations.FinalEncryptCompletes : Prop :=
  ∀ (count : Word) (payload : Bytes) (s : State),
    s.st = .active → s.dir = .encrypt → count.toNat ≤ payload.length →
    let P := (pad s.padm (payload.take count.toNat) s.bs.toNat s).1
    exec (.xformFinal count payload) s = .next
      { (ks P.length s).2 with
        st := .done
        m := s.m + BitVec.ofNat 64 P.length
        entropyPos := s.entropyPos + (if s.padm = .iso10126 then s.bs.toNat - count.toNat % s.bs.toNat - 1 else 0)
        outbox := s.outbox ++ [⟨0, 0, resultOf P.length, xorBytes P (ks P.length s).1⟩] }

/-- R206: XFORM_FINAL of a decrypting transform under None completes: it transforms exactly its input. -/
def Obligations.FinalDecryptPlainCompletes : Prop :=
  ∀ (count : Word) (payload : Bytes) (s : State),
    s.st = .active → s.dir = .decrypt → s.padm = .noPad → count.toNat ≤ payload.length →
    exec (.xformFinal count payload) s = .next
      { (ks count.toNat s).2 with
        st := .done
        m := s.m + count.setWidth 64
        outbox := s.outbox ++ [⟨0, 0, count, xorBytes (payload.take count.toNat) (ks count.toNat s).1⟩] }

/-- R206, R185, R238: XFORM_FINAL of a padded decrypt completes, or raises the padding error of its tail; the registers
are the same in both cases. RESULT is free where |OUT| does not fit in 32 bits, as when a held block goes out with a COUNT
close to 2^32 (assumption 5). -/
def Obligations.FinalDecryptPaddedCompletes : Prop :=
  ∀ (count : Word) (payload : Bytes) (s : State),
    s.st = .active → s.dir = .decrypt → s.padm ≠ .noPad → s.BlockSizeLegal → count.toNat ≤ payload.length →
    let tail := (if s.laValid then s.laBuf.toList.take s.bs.toNat else []) ++ payload.take count.toNat
    let D := xorBytes tail (ks tail.length s).1
    let t (r : Response) : State :=
      { (ks tail.length s).2 with
        st := .done, m := s.m + BitVec.ofNat 64 tail.length, laBuf := Vector.replicate 32 0, laValid := false
        outbox := s.outbox ++ [r] }
    (∀ P, unpad s.padm D s.bs.toNat = .ok P →
      exec (.xformFinal count payload) s = .next (t ⟨0, 0, resultOf P.length, P⟩)) ∧
    (∀ d, unpad s.padm D s.bs.toNat = .error d →
      exec (.xformFinal count payload) s = .next (t ⟨5, d.detail, 0, []⟩))

/-- R206, R239: the first failing check of XFORM_FINAL is the error it reports; past them only ERR_PADDING remains, and
only in lookahead mode. -/
def Obligations.FinalChecksInOrder : Prop :=
  ∀ (count : Word) (payload : Bytes) (s t : State) (r : Response),
    Answers (.xformFinal count payload) s t r →
    (s.st = .idle → (r.status, r.detail) = (2, 1)) ∧
    (s.st = .done → (r.status, r.detail) = (2, 2)) ∧
    (s.st = .active → payload.length < count.toNat → (r.status, r.detail) = (4, 2)) ∧
    (s.st = .active → count.toNat ≤ payload.length →
      r.status = 0 ∨ (r.status = 5 ∧ s.dir = .decrypt ∧ s.padm ≠ .noPad))

/-! ## GET_INFO, DISPOSE, reset -/

/-- R85, R207: GET_INFO completes in every state, writes no register, and RESULT is the INFO word, field by
field; in IDLE it is 0, where invariant (a) of R41 holds. -/
def Obligations.GetInfoCompletes : Prop :=
  ∀ s : State, ∃ w : Word,
    exec .getInfo s = .next { s with outbox := s.outbox ++ [⟨0, 0, w, []⟩] } ∧
      w.toNat = s.st.code.toNat + 2 ^ 2 * s.dir.code.toNat + 2 ^ 3 * s.laValid.toNat + 2 ^ 4 * s.eng.code.toNat +
        2 ^ 8 * s.padm.code.toNat + 2 ^ 16 * s.bs.toNat ∧
      (s.st = .idle → s.IdleZero → w = 0)

/-- R208, R260, R261: DISPOSE completes in every state and leaves every register at its reset value. -/
def Obligations.DisposeCompletes : Prop :=
  ∀ s : State,
    exec .dispose s = .next
      { State.reset with
        rc4MinKeyBytes := s.rc4MinKeyBytes, entropyPos := s.entropyPos, inbox := s.inbox
        outbox := s.outbox ++ [⟨0, 0, 0, []⟩] }

/-- R40, R260: the state after reset, register by register. -/
def Obligations.ResetValues : Prop :=
  let s := State.reset
  (∀ j : Fin 8, s.rabbit.x[j] = 0 ∧ s.rabbit.c[j] = 0) ∧ s.rabbit.carry = false ∧
    s.rabbit.a.words = #v[0x4D34D34D, 0xD34D34D3, 0x34D34D34, 0x4D34D34D, 0xD34D34D3, 0x34D34D34, 0x4D34D34D, 0xD34D34D3] ∧
    (∀ k : Fin 256, s.rc4.s[k] = 0) ∧ s.rc4.i = 0 ∧ s.rc4.j = 0 ∧
    s.st = .idle ∧ s.dir = .encrypt ∧ s.eng = .rabbit ∧ s.padm = .noPad ∧ s.bs = 0 ∧
    (∀ k : Fin 32, s.laBuf[k] = 0) ∧ s.laValid = false ∧ s.m = 0

/-! ## Invariants and whole-machine rules -/

/-- R41: the invariants hold at reset. -/
def Obligations.InvHoldsAtReset : Prop := State.reset.Inv

/-- R41, R25, R31 to R35: every step keeps the invariants, from every state that meets them. -/
def Obligations.StepKeepsInv : Prop := ∀ s t : State, s.Inv → step s = .next t → t.Inv

/-- R34, R41 (c) and (e): below M's wrap, M stays a multiple of BS while ACTIVE and never decreases while ST is not
IDLE. -/
def Obligations.PositionIsAlignedAndMonotone : Prop :=
  ∀ (i : Instr) (s t : State), s.Inv → s.m.toNat + 2 ^ 33 ≤ 2 ^ 64 → exec i s = .next t →
    (s.st = .active → s.m.toNat % s.bs.toNat = 0 → t.st = .active → t.m.toNat % t.bs.toNat = 0) ∧
    (s.st ≠ .idle → t.st ≠ .idle → s.m.toNat ≤ t.m.toNat)

/-- R34: no rule that computes an output byte reads M: two states that differ in M alone get the same response and go to
states that differ in M alone. That RESULT is the same where |OUT| does not fit in 32 bits rests on assumption 5 (the free
word is a function of |OUT|). -/
def Obligations.PositionIsNeverRead : Prop :=
  ∀ (i : Instr) (s t t' : State) (m : BitVec 64), exec i s = .next t → exec i { s with m := m } = .next t' →
    t' = { t with m := t'.m }

/-- R36: two states with the same registers that GET_INFO reports and the same parameter of R6 (a field of the model,
assumption 3) answer every command with the same status, detail, RESULT and length of OUT, except where an active padded
decrypt is ended by XFORM_FINAL: there each answer is a success or ERR_PADDING. In every case they go to states with the
same reported registers. The bytes of OUT do depend on the unreported registers, and nothing is said of them. That RESULT
is the same where |OUT| does not fit in 32 bits rests on assumption 5 (the free word is a function of |OUT|). -/
def Obligations.ReportedRegistersFixResponseShapeButPaddedFinal : Prop :=
  ∀ (i : Instr) (s s' t t' : State) (r r' : Response),
    SameVisible s s' → s.rc4MinKeyBytes = s'.rc4MinKeyBytes → Answers i s t r → Answers i s' t' r' →
    SameVisible t t' ∧
      ((r.status = r'.status ∧ r.detail = r'.detail ∧ r.result = r'.result ∧ r.out.length = r'.out.length) ∨
        (IsFinal i ∧ s.st = .active ∧ s.dir = .decrypt ∧ s.padm ≠ .noPad ∧
          (r.status = 0 ∨ r.status = 5) ∧ (r'.status = 0 ∨ r'.status = 5)))

/-- R7, R155, R242: the position of the entropy source (a field of the model, assumption 4) has a part in no register, no
status, detail, RESULT or length, and in no byte of OUT but the N - 1 fill bytes of an XFORM_FINAL that encrypts under
ISO10126: every other command returns the same response, and that one the same data bytes and the same count byte. That
RESULT is the same where |OUT| does not fit in 32 bits rests on assumption 5 (the free word is a function of |OUT|). -/
def Obligations.EntropyReachesOnlyIsoFill : Prop :=
  ∀ (i : Instr) (s t t' : State) (r r' : Response) (p : Nat),
    Answers i s t r → Answers i { s with entropyPos := p } t' r' →
    r.status = r'.status ∧ r.detail = r'.detail ∧ r.result = r'.result ∧ r.out.length = r'.out.length ∧
      SameRegisters t t' ∧
      (¬(IsFinal i ∧ s.dir = .encrypt ∧ s.padm = .iso10126) → r = r') ∧
      ∀ count payload, i = .xformFinal count payload → ∀ k, k < count.toNat ∨ k + 1 = r.out.length →
        s.dir = .encrypt → r.out.getD k 0 = r'.out.getD k 0

/-- R187: chunk independence in pass-through mode: XFORM_BLOCKs over any chunks and an XFORM_FINAL give the output and
the registers of one XFORM_FINAL over the whole input. Under ISO10126 the fill bytes agree because both runs start at the
same place of the entropy tape (assumption 4). -/
def Obligations.ChunkIndependencePassThrough : Prop :=
  ∀ (chunks : List Bytes) (tail : Bytes) (s : State),
    s.st = .active → (s.dir = .encrypt ∨ s.padm = .noPad) → s.BlockSizeLegal →
    (∀ D ∈ chunks, ChunkLegal s.bs.toNat D) → (chunks.flatten ++ tail).length + 32 < 2 ^ 32 →
    ∃ t u, execAll (streamCommands chunks tail) s = .next t ∧ exec (finalCommand (chunks.flatten ++ tail)) s = .next u ∧
      newOutput s t = newOutput s u ∧ SameRegisters t u ∧ t.entropyPos = u.entropyPos

/-- R187: chunk independence in lookahead mode: the padding verdict and the registers do not depend on the chunking, and
when the padding is valid neither does the concatenated plaintext. -/
def Obligations.ChunkIndependenceLookahead : Prop :=
  ∀ (chunks : List Bytes) (tail : Bytes) (s : State),
    s.st = .active → s.dir = .decrypt → s.padm ≠ .noPad → s.BlockSizeLegal → s.laValid = false →
    (∀ D ∈ chunks, ChunkLegal s.bs.toNat D) → (chunks.flatten ++ tail).length + 32 < 2 ^ 32 →
    ∃ t u r r', execAll (streamCommands chunks tail) s = .next t ∧
      exec (finalCommand (chunks.flatten ++ tail)) s = .next u ∧
      t.outbox.getLast? = some r ∧ u.outbox.getLast? = some r' ∧
      r.status = r'.status ∧ r.detail = r'.detail ∧ SameRegisters t u ∧
      (r.status = 0 → newOutput s t = newOutput s u)

/-- R166, with R182: decrypting, in any chunking, the output of an encryption, in any chunking, under the same
configuration, key and IV gives the plaintext, and every command of both runs succeeds, so that no padding error is
raised; under Zeros, for a plaintext that is empty or does not end in 0x00. -/
def Obligations.DecryptInvertsEncrypt : Prop :=
  ∀ (o : InitOps) (padm : PadMode) (s s' : State) (chunks chunks' : List Bytes) (tail tail' : Bytes),
    ((RabbitInitLegal o padm s ∧ RabbitInitLegal o padm s') ∨ (Rc4InitLegal o padm s ∧ Rc4InitLegal o padm s')) →
    let B := if o.bsz = 0 then 16 else o.bsz.toNat
    let P := chunks.flatten ++ tail
    (∀ D ∈ chunks, ChunkLegal B D) → (∀ D ∈ chunks', ChunkLegal B D) → P.length + 64 < 2 ^ 32 →
    (padm = .zeros → P = [] ∨ P.getLast? ≠ some 0) →
    ∃ t, execAll (.initEnc o :: streamCommands chunks tail) s = .next t ∧ AllSucceed (chunks.length + 2) s t ∧
      (chunks'.flatten ++ tail' = newOutput s t →
        ∃ t', execAll (.initDec o :: streamCommands chunks' tail') s' = .next t' ∧
          AllSucceed (chunks'.length + 2) s' t' ∧ newOutput s' t' = P)

/-- R188: in pass-through mode, the XOR of the outputs for two inputs of one length, sent with the same chunking, is the
XOR of the inputs, then zeros where both were padded alike (the entropy answers agree, since both runs start at the same
place of the tape: assumption 4). -/
def Obligations.KeystreamXorProperty : Prop :=
  ∀ (chunks chunks' : List Bytes) (tail tail' : Bytes) (s : State),
    s.st = .active → (s.dir = .encrypt ∨ s.padm = .noPad) → s.BlockSizeLegal →
    (∀ D ∈ chunks, ChunkLegal s.bs.toNat D) → chunks.map List.length = chunks'.map List.length →
    tail.length = tail'.length → (chunks.flatten ++ tail).length + 32 < 2 ^ 32 →
    let P := chunks.flatten ++ tail
    let added := if s.dir = .encrypt then (pad s.padm P s.bs.toNat s).1.length - P.length else 0
    ∃ t t', execAll (streamCommands chunks tail) s = .next t ∧ execAll (streamCommands chunks' tail') s = .next t' ∧
      xorBytes (newOutput s t) (newOutput s t') = xorBytes P (chunks'.flatten ++ tail') ++ zeros added
end

