-- ==== Sys2Proof/Laws/State.lean ====
section
/-! SUPPORT. One lemma per field per update of the state, each true by unfolding the update, so that no proof unfolds a record
update. -/

namespace Sys2Proof.Machine

/-! ### `respond` -/

@[simp] theorem respond_rabbit (r : Response) (s : State) : (respond r s).rabbit = s.rabbit := rfl
@[simp] theorem respond_rc4 (r : Response) (s : State) : (respond r s).rc4 = s.rc4 := rfl
@[simp] theorem respond_st (r : Response) (s : State) : (respond r s).st = s.st := rfl
@[simp] theorem respond_dir (r : Response) (s : State) : (respond r s).dir = s.dir := rfl
@[simp] theorem respond_eng (r : Response) (s : State) : (respond r s).eng = s.eng := rfl
@[simp] theorem respond_padm (r : Response) (s : State) : (respond r s).padm = s.padm := rfl
@[simp] theorem respond_bs (r : Response) (s : State) : (respond r s).bs = s.bs := rfl
@[simp] theorem respond_laBuf (r : Response) (s : State) : (respond r s).laBuf = s.laBuf := rfl
@[simp] theorem respond_laValid (r : Response) (s : State) : (respond r s).laValid = s.laValid := rfl
@[simp] theorem respond_m (r : Response) (s : State) : (respond r s).m = s.m := rfl
@[simp] theorem respond_rc4MinKeyBytes (r : Response) (s : State) : (respond r s).rc4MinKeyBytes = s.rc4MinKeyBytes := rfl
@[simp] theorem respond_entropyPos (r : Response) (s : State) : (respond r s).entropyPos = s.entropyPos := rfl
@[simp] theorem respond_inbox (r : Response) (s : State) : (respond r s).inbox = s.inbox := rfl
@[simp] theorem respond_outbox (r : Response) (s : State) : (respond r s).outbox = s.outbox ++ [r] := rfl

/-! ### `raiseErr` -/

@[simp] theorem raiseErr_rabbit (e : Err) (s : State) : (raiseErr e s).rabbit = s.rabbit := rfl
@[simp] theorem raiseErr_rc4 (e : Err) (s : State) : (raiseErr e s).rc4 = s.rc4 := rfl
@[simp] theorem raiseErr_st (e : Err) (s : State) : (raiseErr e s).st = s.st := rfl
@[simp] theorem raiseErr_dir (e : Err) (s : State) : (raiseErr e s).dir = s.dir := rfl
@[simp] theorem raiseErr_eng (e : Err) (s : State) : (raiseErr e s).eng = s.eng := rfl
@[simp] theorem raiseErr_padm (e : Err) (s : State) : (raiseErr e s).padm = s.padm := rfl
@[simp] theorem raiseErr_bs (e : Err) (s : State) : (raiseErr e s).bs = s.bs := rfl
@[simp] theorem raiseErr_laBuf (e : Err) (s : State) : (raiseErr e s).laBuf = s.laBuf := rfl
@[simp] theorem raiseErr_laValid (e : Err) (s : State) : (raiseErr e s).laValid = s.laValid := rfl
@[simp] theorem raiseErr_m (e : Err) (s : State) : (raiseErr e s).m = s.m := rfl
@[simp] theorem raiseErr_rc4MinKeyBytes (e : Err) (s : State) : (raiseErr e s).rc4MinKeyBytes = s.rc4MinKeyBytes := rfl
@[simp] theorem raiseErr_entropyPos (e : Err) (s : State) : (raiseErr e s).entropyPos = s.entropyPos := rfl
@[simp] theorem raiseErr_inbox (e : Err) (s : State) : (raiseErr e s).inbox = s.inbox := rfl
@[simp] theorem raiseErr_outbox (e : Err) (s : State) : (raiseErr e s).outbox = s.outbox ++ [errResponse e] := rfl

/-! ### `finish` -/

@[simp] theorem finish_rabbit (out : Bytes) (s : State) : (finish out s).rabbit = s.rabbit := rfl
@[simp] theorem finish_rc4 (out : Bytes) (s : State) : (finish out s).rc4 = s.rc4 := rfl
@[simp] theorem finish_st (out : Bytes) (s : State) : (finish out s).st = s.st := rfl
@[simp] theorem finish_dir (out : Bytes) (s : State) : (finish out s).dir = s.dir := rfl
@[simp] theorem finish_eng (out : Bytes) (s : State) : (finish out s).eng = s.eng := rfl
@[simp] theorem finish_padm (out : Bytes) (s : State) : (finish out s).padm = s.padm := rfl
@[simp] theorem finish_bs (out : Bytes) (s : State) : (finish out s).bs = s.bs := rfl
@[simp] theorem finish_laBuf (out : Bytes) (s : State) : (finish out s).laBuf = s.laBuf := rfl
@[simp] theorem finish_laValid (out : Bytes) (s : State) : (finish out s).laValid = s.laValid := rfl
@[simp] theorem finish_m (out : Bytes) (s : State) : (finish out s).m = s.m := rfl
@[simp] theorem finish_rc4MinKeyBytes (out : Bytes) (s : State) : (finish out s).rc4MinKeyBytes = s.rc4MinKeyBytes := rfl
@[simp] theorem finish_entropyPos (out : Bytes) (s : State) : (finish out s).entropyPos = s.entropyPos := rfl
@[simp] theorem finish_inbox (out : Bytes) (s : State) : (finish out s).inbox = s.inbox := rfl
@[simp] theorem finish_outbox (out : Bytes) (s : State) : (finish out s).outbox = s.outbox ++ [okResponse (resultOf out.length) out] := rfl

/-! ### `resetState` -/

@[simp] theorem resetState_rabbit (s : State) : (resetState s).rabbit = ⟨Vector.replicate 8 0, Vector.replicate 8 0, false, s.rabbit.a⟩ := rfl
@[simp] theorem resetState_rc4 (s : State) : (resetState s).rc4 = Rc4.reset := rfl
@[simp] theorem resetState_st (s : State) : (resetState s).st = .idle := rfl
@[simp] theorem resetState_dir (s : State) : (resetState s).dir = .encrypt := rfl
@[simp] theorem resetState_eng (s : State) : (resetState s).eng = .rabbit := rfl
@[simp] theorem resetState_padm (s : State) : (resetState s).padm = .noPad := rfl
@[simp] theorem resetState_bs (s : State) : (resetState s).bs = 0 := rfl
@[simp] theorem resetState_laBuf (s : State) : (resetState s).laBuf = Vector.replicate 32 0 := rfl
@[simp] theorem resetState_laValid (s : State) : (resetState s).laValid = false := rfl
@[simp] theorem resetState_m (s : State) : (resetState s).m = 0 := rfl
@[simp] theorem resetState_rc4MinKeyBytes (s : State) : (resetState s).rc4MinKeyBytes = s.rc4MinKeyBytes := rfl
@[simp] theorem resetState_entropyPos (s : State) : (resetState s).entropyPos = s.entropyPos := rfl
@[simp] theorem resetState_inbox (s : State) : (resetState s).inbox = s.inbox := rfl
@[simp] theorem resetState_outbox (s : State) : (resetState s).outbox = s.outbox := rfl

/-! ### `entropy` -/

@[simp] theorem entropy_rabbit (n : Nat) (s : State) : (entropy n s).2.rabbit = s.rabbit := rfl
@[simp] theorem entropy_rc4 (n : Nat) (s : State) : (entropy n s).2.rc4 = s.rc4 := rfl
@[simp] theorem entropy_st (n : Nat) (s : State) : (entropy n s).2.st = s.st := rfl
@[simp] theorem entropy_dir (n : Nat) (s : State) : (entropy n s).2.dir = s.dir := rfl
@[simp] theorem entropy_eng (n : Nat) (s : State) : (entropy n s).2.eng = s.eng := rfl
@[simp] theorem entropy_padm (n : Nat) (s : State) : (entropy n s).2.padm = s.padm := rfl
@[simp] theorem entropy_bs (n : Nat) (s : State) : (entropy n s).2.bs = s.bs := rfl
@[simp] theorem entropy_laBuf (n : Nat) (s : State) : (entropy n s).2.laBuf = s.laBuf := rfl
@[simp] theorem entropy_laValid (n : Nat) (s : State) : (entropy n s).2.laValid = s.laValid := rfl
@[simp] theorem entropy_m (n : Nat) (s : State) : (entropy n s).2.m = s.m := rfl
@[simp] theorem entropy_rc4MinKeyBytes (n : Nat) (s : State) : (entropy n s).2.rc4MinKeyBytes = s.rc4MinKeyBytes := rfl
@[simp] theorem entropy_entropyPos (n : Nat) (s : State) : (entropy n s).2.entropyPos = s.entropyPos + n := rfl
@[simp] theorem entropy_inbox (n : Nat) (s : State) : (entropy n s).2.inbox = s.inbox := rfl
@[simp] theorem entropy_outbox (n : Nat) (s : State) : (entropy n s).2.outbox = s.outbox := rfl

/-! ### `hold` -/

@[simp] theorem hold_rabbit (blk : Bytes) (s : State) : (hold blk s).rabbit = s.rabbit := by dsimp only [hold]
@[simp] theorem hold_rc4 (blk : Bytes) (s : State) : (hold blk s).rc4 = s.rc4 := by dsimp only [hold]
@[simp] theorem hold_st (blk : Bytes) (s : State) : (hold blk s).st = s.st := by dsimp only [hold]
@[simp] theorem hold_dir (blk : Bytes) (s : State) : (hold blk s).dir = s.dir := by dsimp only [hold]
@[simp] theorem hold_eng (blk : Bytes) (s : State) : (hold blk s).eng = s.eng := by dsimp only [hold]
@[simp] theorem hold_padm (blk : Bytes) (s : State) : (hold blk s).padm = s.padm := by dsimp only [hold]
@[simp] theorem hold_bs (blk : Bytes) (s : State) : (hold blk s).bs = s.bs := by dsimp only [hold]
@[simp] theorem hold_laBuf (blk : Bytes) (s : State) : (hold blk s).laBuf = storeBlock s.laBuf blk := by dsimp only [hold]
@[simp] theorem hold_laValid (blk : Bytes) (s : State) : (hold blk s).laValid = true := by dsimp only [hold]
@[simp] theorem hold_m (blk : Bytes) (s : State) : (hold blk s).m = s.m := by dsimp only [hold]
@[simp] theorem hold_rc4MinKeyBytes (blk : Bytes) (s : State) : (hold blk s).rc4MinKeyBytes = s.rc4MinKeyBytes := by dsimp only [hold]
@[simp] theorem hold_entropyPos (blk : Bytes) (s : State) : (hold blk s).entropyPos = s.entropyPos := by dsimp only [hold]
@[simp] theorem hold_inbox (blk : Bytes) (s : State) : (hold blk s).inbox = s.inbox := by dsimp only [hold]
@[simp] theorem hold_outbox (blk : Bytes) (s : State) : (hold blk s).outbox = s.outbox := by dsimp only [hold]

/-! ### `clearLookahead` -/

@[simp] theorem clearLookahead_rabbit (s : State) : (clearLookahead s).rabbit = s.rabbit := rfl
@[simp] theorem clearLookahead_rc4 (s : State) : (clearLookahead s).rc4 = s.rc4 := rfl
@[simp] theorem clearLookahead_st (s : State) : (clearLookahead s).st = s.st := rfl
@[simp] theorem clearLookahead_dir (s : State) : (clearLookahead s).dir = s.dir := rfl
@[simp] theorem clearLookahead_eng (s : State) : (clearLookahead s).eng = s.eng := rfl
@[simp] theorem clearLookahead_padm (s : State) : (clearLookahead s).padm = s.padm := rfl
@[simp] theorem clearLookahead_bs (s : State) : (clearLookahead s).bs = s.bs := rfl
@[simp] theorem clearLookahead_laBuf (s : State) : (clearLookahead s).laBuf = Vector.replicate 32 0 := rfl
@[simp] theorem clearLookahead_laValid (s : State) : (clearLookahead s).laValid = false := rfl
@[simp] theorem clearLookahead_m (s : State) : (clearLookahead s).m = s.m := rfl
@[simp] theorem clearLookahead_rc4MinKeyBytes (s : State) : (clearLookahead s).rc4MinKeyBytes = s.rc4MinKeyBytes := rfl
@[simp] theorem clearLookahead_entropyPos (s : State) : (clearLookahead s).entropyPos = s.entropyPos := rfl
@[simp] theorem clearLookahead_inbox (s : State) : (clearLookahead s).inbox = s.inbox := rfl
@[simp] theorem clearLookahead_outbox (s : State) : (clearLookahead s).outbox = s.outbox := rfl

/-! ### `withFetchWord` -/

@[simp] theorem withFetchWord_rabbit (s : State) (nbits w : Nat) : (s.withFetchWord nbits w).rabbit = s.rabbit := rfl
@[simp] theorem withFetchWord_rc4 (s : State) (nbits w : Nat) : (s.withFetchWord nbits w).rc4 = s.rc4 := rfl
@[simp] theorem withFetchWord_st (s : State) (nbits w : Nat) : (s.withFetchWord nbits w).st = s.st := rfl
@[simp] theorem withFetchWord_dir (s : State) (nbits w : Nat) : (s.withFetchWord nbits w).dir = s.dir := rfl
@[simp] theorem withFetchWord_eng (s : State) (nbits w : Nat) : (s.withFetchWord nbits w).eng = s.eng := rfl
@[simp] theorem withFetchWord_padm (s : State) (nbits w : Nat) : (s.withFetchWord nbits w).padm = s.padm := rfl
@[simp] theorem withFetchWord_bs (s : State) (nbits w : Nat) : (s.withFetchWord nbits w).bs = s.bs := rfl
@[simp] theorem withFetchWord_laBuf (s : State) (nbits w : Nat) : (s.withFetchWord nbits w).laBuf = s.laBuf := rfl
@[simp] theorem withFetchWord_laValid (s : State) (nbits w : Nat) : (s.withFetchWord nbits w).laValid = s.laValid := rfl
@[simp] theorem withFetchWord_m (s : State) (nbits w : Nat) : (s.withFetchWord nbits w).m = s.m := rfl
@[simp] theorem withFetchWord_rc4MinKeyBytes (s : State) (nbits w : Nat) : (s.withFetchWord nbits w).rc4MinKeyBytes = s.rc4MinKeyBytes := rfl
@[simp] theorem withFetchWord_entropyPos (s : State) (nbits w : Nat) : (s.withFetchWord nbits w).entropyPos = s.entropyPos := rfl
@[simp] theorem withFetchWord_inbox (s : State) (nbits w : Nat) : (s.withFetchWord nbits w).inbox = .command (commandOfBits nbits w) :: s.inbox := rfl
@[simp] theorem withFetchWord_outbox (s : State) (nbits w : Nat) : (s.withFetchWord nbits w).outbox = s.outbox := rfl

/-! ### The constants `A` have one value (R24) -/

theorem counterConstants_eq (a b : CounterConstants) : a = b := by
  obtain ⟨wa, ha⟩ := a
  obtain ⟨wb, hb⟩ := b
  subst ha
  subst hb
  rfl

@[simp] theorem resetState_rabbit_reset (s : State) : (resetState s).rabbit = Rabbit.reset := by
  simp only [resetState_rabbit, Rabbit.reset, counterConstants_eq s.rabbit.a ⟨rabbitA, rfl⟩]

@[simp] theorem resetState_resetState (s : State) : resetState (resetState s) = resetState s := rfl

end Sys2Proof.Machine
end

