-- ==== Sys2Proof/Laws/Padding.lean ====
section
/-! SUPPORT. The entropy oracle's answer, and what `Pad` can do to the state: only ISO10126 touches it, and only the
entropy position (R155). -/

namespace Sys2Proof.Machine

@[simp] theorem entropy_length (n : Nat) (s : State) : (entropy n s).1.length = n := by simp [entropy]

/-- How many bytes `Pad` asks of the entropy source (R155); none under any other mode. -/
def entropyAsked (mode : PadMode) (B L : Nat) : Nat :=
  match mode with
  | .iso10126 => padCount B L - 1
  | _ => 0

/-- R151 to R155: the state after `Pad`. -/
theorem pad_state (mode : PadMode) (P : Bytes) (B : Nat) (s : State) :
    (pad mode P B s).2 = { s with entropyPos := s.entropyPos + entropyAsked mode B P.length } := by
  cases mode <;> rfl

/-- R150: N is at most B, and at least 1 where B is. -/
theorem padCount_le (B L : Nat) : padCount B L ≤ B := Nat.sub_le _ _

theorem padCount_pos {B : Nat} (h : 1 ≤ B) (L : Nat) : 1 ≤ padCount B L := by
  have := Nat.mod_lt L h
  unfold padCount
  omega

/-- R150: the padded length of the count modes is a multiple of B. -/
theorem padCount_aligns {B : Nat} (h : 1 ≤ B) (L : Nat) : (L + padCount B L) % B = 0 := by
  have h1 := Nat.mod_lt L h
  have h2 : L + padCount B L = B * (L / B + 1) := by
    have := Nat.div_add_mod L B
    unfold padCount
    rw [Nat.mul_succ]
    omega
  rw [h2, Nat.mul_mod_right]

end Sys2Proof.Machine
end

