-- ==== Sys2Proof/Laws/Rabbit.lean ====
section
/-! SUPPORT. What the Rabbit engine's operations write and how long their outputs are. -/

namespace Sys2Proof.Machine

@[simp] theorem counterLane_x (r : Rabbit) (j : Fin 8) : (r.counterLane j).x = r.x := rfl
@[simp] theorem counterLane_a (r : Rabbit) (j : Fin 8) : (r.counterLane j).a = r.a := rfl

@[simp] theorem counterUpdate_x (r : Rabbit) : r.counterUpdate.x = r.x := rfl
@[simp] theorem counterUpdate_a (r : Rabbit) : r.counterUpdate.a = r.a := rfl

@[simp] theorem nextState_c (r : Rabbit) : r.nextState.c = r.c := rfl
@[simp] theorem nextState_carry (r : Rabbit) : r.nextState.carry = r.carry := rfl
@[simp] theorem nextState_a (r : Rabbit) : r.nextState.a = r.a := rfl

/-- R106: `X[j]` of the next state is the recombination of the old G words. -/
theorem nextState_x_getElem (r : Rabbit) (j : Fin 8) : r.nextState.x[j] = recombine r.gWords j := by
  simp [Rabbit.nextState]

theorem gWords_getElem (r : Rabbit) (i : Fin 8) : r.gWords[i] = rabbitG r.x[i] r.c[i] := by
  simp [Rabbit.gWords]

theorem iterates_zero (r : Rabbit) : Rabbit.iterates 0 r = r := rfl

theorem iterates_succ (n : Nat) (r : Rabbit) : Rabbit.iterates (n + 1) r = Rabbit.iterates n r.iterate := rfl

theorem iterates_add (m n : Nat) (r : Rabbit) :
    Rabbit.iterates (m + n) r = Rabbit.iterates n (Rabbit.iterates m r) := by
  induction m generalizing r with
  | zero => simp [iterates_zero]
  | succ m ih => rw [Nat.succ_add, iterates_succ, iterates_succ, ih]

@[simp] theorem wordBytes_length (w : Word) : (wordBytes w).length = 4 := rfl

@[simp] theorem extractOutput_length (r : Rabbit) : r.extractOutput.length = 16 := by
  simp [Rabbit.extractOutput, Rabbit.outputWords]

@[simp] theorem nextBlock_length (r : Rabbit) : r.nextBlock.1.length = 16 := extractOutput_length _

@[simp] theorem nextBlock_state (r : Rabbit) : r.nextBlock.2 = r.iterate := rfl

theorem blocks_zero (r : Rabbit) : Rabbit.blocks 0 r = ([], r) := rfl

theorem blocks_succ (n : Nat) (r : Rabbit) :
    Rabbit.blocks (n + 1) r = (r.nextBlock.1 ++ (Rabbit.blocks n r.iterate).1, (Rabbit.blocks n r.iterate).2) := rfl

@[simp] theorem blocks_length (n : Nat) (r : Rabbit) : (Rabbit.blocks n r).1.length = 16 * n := by
  induction n generalizing r with
  | zero => rfl
  | succ n ih => rw [blocks_succ, List.length_append, nextBlock_length, ih, Nat.mul_succ, Nat.add_comm]

/-- R115: a run of blocks writes what that many applications of R107 write. -/
theorem blocks_state (n : Nat) (r : Rabbit) : (Rabbit.blocks n r).2 = Rabbit.iterates n r := by
  induction n generalizing r with
  | zero => rfl
  | succ n ih => rw [blocks_succ, ih, iterates_succ]

/-- Two runs of blocks are one run. -/
theorem blocks_add (m n : Nat) (r : Rabbit) :
    Rabbit.blocks (m + n) r =
      ((Rabbit.blocks m r).1 ++ (Rabbit.blocks n (Rabbit.iterates m r)).1, Rabbit.iterates (m + n) r) := by
  induction m generalizing r with
  | zero => simp [blocks_zero, ← blocks_state]
  | succ m ih => rw [Nat.succ_add, blocks_succ, ih, blocks_succ, iterates_succ, iterates_succ, List.append_assoc]

theorem draw_bytes (n : Nat) (r : Rabbit) : (r.draw n).1 = (Rabbit.blocks (blocksFor n) r).1.take n := rfl

theorem draw_state (n : Nat) (r : Rabbit) : (r.draw n).2 = Rabbit.iterates (blocksFor n) r := blocks_state _ _

@[simp] theorem rabbit_draw_length (n : Nat) (r : Rabbit) : (r.draw n).1.length = n := by
  rw [draw_bytes, List.length_take, blocks_length, blocksFor]
  omega

end Sys2Proof.Machine
end

