-- ==== Sys2Proof/Laws/Rc4.lean ====
section
/-! SUPPORT. What a swap does to the RC4 table, and what a draw answers and leaves. -/

namespace Sys2Proof.Machine

/-- R131, R132: a swap only exchanges two entries. -/
theorem swap_perm (S : Vector Byte 256) (i j : Byte) : (Rc4.swap S i j).toList.Perm S.toList := by
  have h := Vector.swap_perm (xs := S) (i := i.toNat) (j := j.toNat) i.isLt j.isLt
  exact (Vector.perm_iff_toList_perm.mp h)

theorem swap_isPermutation {S : Vector Byte 256} (h : Rc4.IsPermutation S) (i j : Byte) :
    Rc4.IsPermutation (Rc4.swap S i j) := (swap_perm S i j).trans h

/-- R131, R132: every entry after a swap. -/
theorem entry_swap (S : Vector Byte 256) (i j k : Byte) :
    Rc4.entry (Rc4.swap S i j) k = if k = i then Rc4.entry S j else if k = j then Rc4.entry S i else Rc4.entry S k := by
  have key : ∀ a b : Byte, a.toNat = b.toNat ↔ a = b := fun a b => ⟨BitVec.eq_of_toNat_eq, congrArg _⟩
  simp only [Rc4.entry, Rc4.swap, Vector.getElem_swap, key]

@[simp] theorem prga_i (r : Rc4) : r.prga.2.i = r.i + 1 := rfl

theorem prga_s (r : Rc4) : r.prga.2.s = Rc4.swap r.s (r.i + 1) (r.j + Rc4.entry r.s (r.i + 1)) := rfl

theorem rc4_draw_zero (r : Rc4) : Rc4.draw 0 r = ([], r) := rfl

theorem rc4_draw_succ (n : Nat) (r : Rc4) :
    Rc4.draw (n + 1) r = (r.prga.1 :: (Rc4.draw n r.prga.2).1, (Rc4.draw n r.prga.2).2) := rfl

@[simp] theorem rc4_draw_length (n : Nat) (r : Rc4) : (Rc4.draw n r).1.length = n := by
  induction n generalizing r with
  | zero => rfl
  | succ n ih => rw [rc4_draw_succ, List.length_cons, ih]

end Sys2Proof.Machine
end

