-- ==== Sys2Proof/Laws/Transform.lean ====
section
/-! SUPPORT. What a keystream draw and a keystream XOR write, and how long their answers are. -/

namespace Sys2Proof.Machine

/-- R181: a draw writes the bound engine's registers and nothing else. -/
theorem ks_state (n : Nat) (s : State) :
    (ks n s).2 = { s with
      rabbit := if s.eng = .rabbit then (s.rabbit.draw n).2 else s.rabbit
      rc4 := if s.eng = .rc4 then (s.rc4.draw n).2 else s.rc4 } := by
  unfold ks
  cases h : s.eng <;> simp

@[simp] theorem ks_length (n : Nat) (s : State) : (ks n s).1.length = n := by
  unfold ks
  cases s.eng <;> simp

@[simp] theorem ks_st (n : Nat) (s : State) : (ks n s).2.st = s.st := by simp [ks_state]
@[simp] theorem ks_dir (n : Nat) (s : State) : (ks n s).2.dir = s.dir := by simp [ks_state]
@[simp] theorem ks_eng (n : Nat) (s : State) : (ks n s).2.eng = s.eng := by simp [ks_state]
@[simp] theorem ks_padm (n : Nat) (s : State) : (ks n s).2.padm = s.padm := by simp [ks_state]
@[simp] theorem ks_bs (n : Nat) (s : State) : (ks n s).2.bs = s.bs := by simp [ks_state]
@[simp] theorem ks_laBuf (n : Nat) (s : State) : (ks n s).2.laBuf = s.laBuf := by simp [ks_state]
@[simp] theorem ks_laValid (n : Nat) (s : State) : (ks n s).2.laValid = s.laValid := by simp [ks_state]
@[simp] theorem ks_m (n : Nat) (s : State) : (ks n s).2.m = s.m := by simp [ks_state]
@[simp] theorem ks_rc4MinKeyBytes (n : Nat) (s : State) : (ks n s).2.rc4MinKeyBytes = s.rc4MinKeyBytes := by
  simp [ks_state]
@[simp] theorem ks_entropyPos (n : Nat) (s : State) : (ks n s).2.entropyPos = s.entropyPos := by simp [ks_state]
@[simp] theorem ks_inbox (n : Nat) (s : State) : (ks n s).2.inbox = s.inbox := by simp [ks_state]
@[simp] theorem ks_outbox (n : Nat) (s : State) : (ks n s).2.outbox = s.outbox := by simp [ks_state]

@[simp] theorem xorBytes_length (D E : Bytes) : (xorBytes D E).length = min D.length E.length := by simp [xorBytes]

/-- R182: the bytes of a keystream XOR. -/
theorem xorKs_bytes (D : Bytes) (s : State) : (xorKs D s).1 = xorBytes D (ks D.length s).1 := rfl

/-- R182: the state after a keystream XOR: the draw's, with M advanced. -/
theorem xorKs_state (D : Bytes) (s : State) :
    (xorKs D s).2 = { (ks D.length s).2 with m := s.m + BitVec.ofNat 64 D.length } := by
  simp [xorKs]

@[simp] theorem xorKs_length (D : Bytes) (s : State) : (xorKs D s).1.length = D.length := by
  simp [xorKs_bytes]

@[simp] theorem xorKs_st (D : Bytes) (s : State) : (xorKs D s).2.st = s.st := by simp [xorKs_state]
@[simp] theorem xorKs_dir (D : Bytes) (s : State) : (xorKs D s).2.dir = s.dir := by simp [xorKs_state]
@[simp] theorem xorKs_eng (D : Bytes) (s : State) : (xorKs D s).2.eng = s.eng := by simp [xorKs_state]
@[simp] theorem xorKs_padm (D : Bytes) (s : State) : (xorKs D s).2.padm = s.padm := by simp [xorKs_state]
@[simp] theorem xorKs_bs (D : Bytes) (s : State) : (xorKs D s).2.bs = s.bs := by simp [xorKs_state]
@[simp] theorem xorKs_laBuf (D : Bytes) (s : State) : (xorKs D s).2.laBuf = s.laBuf := by simp [xorKs_state]
@[simp] theorem xorKs_laValid (D : Bytes) (s : State) : (xorKs D s).2.laValid = s.laValid := by simp [xorKs_state]
@[simp] theorem xorKs_m (D : Bytes) (s : State) : (xorKs D s).2.m = s.m + BitVec.ofNat 64 D.length := by
  simp [xorKs_state]
@[simp] theorem xorKs_rc4MinKeyBytes (D : Bytes) (s : State) : (xorKs D s).2.rc4MinKeyBytes = s.rc4MinKeyBytes := by
  simp [xorKs_state]
@[simp] theorem xorKs_entropyPos (D : Bytes) (s : State) : (xorKs D s).2.entropyPos = s.entropyPos := by
  simp [xorKs_state]
@[simp] theorem xorKs_inbox (D : Bytes) (s : State) : (xorKs D s).2.inbox = s.inbox := by simp [xorKs_state]
@[simp] theorem xorKs_outbox (D : Bytes) (s : State) : (xorKs D s).2.outbox = s.outbox := by simp [xorKs_state]

/-- R185: everything Release can do. -/
theorem release_cases (s : State) :
    (s.laValid = true ∧ release s = ((xorKs s.heldBlock s).1, clearLookahead (xorKs s.heldBlock s).2)) ∨
      (s.laValid = false ∧ release s = ([], s)) := by
  unfold release
  cases h : s.laValid <;> simp

/-- R184: the bytes of the buffer after Hold. -/
theorem storeBlock_getElem (buf : Vector Byte 32) (blk : Bytes) (k : Fin 32) :
    (storeBlock buf blk)[k] = blk.getD k.val buf[k] := by
  simp [storeBlock]

end Sys2Proof.Machine
end

