-- ==== Sys2Proof/Laws/Commands.lean ====
section
/-! SUPPORT. One inversion lemma per command: everything its meaning can answer. No proof about a command needs to
unfold its meaning. -/

namespace Sys2Proof.Machine

/-- Everything INIT_ENC and INIT_DEC can do (R203, R204): the first failing check's error, or the configured state. -/
theorem initWith_cases (dir : Direction) (o : InitOps) (s : State) :
    (∃ e, initCheck o s = .error e ∧ initWith dir o s = raiseErr e s) ∨
      ∃ eng padm, initCheck o s = .ok (eng, padm) ∧
        initWith dir o s = respond (okResponse 0 []) (initCommon dir eng padm o s) := by
  unfold initWith
  cases h : initCheck o s with
  | error e => exact .inl ⟨e, rfl, rfl⟩
  | ok p => exact .inr ⟨p.1, p.2, rfl, rfl⟩

theorem execInitEnc_eq (o : InitOps) (s : State) : exec (.initEnc o) s = .next (initWith .encrypt o s) := rfl

theorem execInitDec_eq (o : InitOps) (s : State) : exec (.initDec o) s = .next (initWith .decrypt o s) := rfl

/-- Everything XFORM_BLOCK can do (R205). -/
theorem execXformBlock_cases (count ocap : Word) (payload : Bytes) (s : State) :
    (∃ e, xformBlockCheck count ocap payload s = some e ∧
        exec (.xformBlock count ocap payload) s = .next (raiseErr e s)) ∨
      (xformBlockCheck count ocap payload s = none ∧
        exec (.xformBlock count ocap payload) s =
          .next (finish (blockTransform (payloadRead payload 0 count.toNat) s).1
            (blockTransform (payloadRead payload 0 count.toNat) s).2)) := by
  simp only [exec, execXformBlock]
  cases xformBlockCheck count ocap payload s with
  | some e => exact .inl ⟨e, rfl, rfl⟩
  | none => exact .inr ⟨rfl, rfl⟩

/-- Everything XFORM_FINAL can do (R206). -/
theorem execXformFinal_cases (count : Word) (payload : Bytes) (s : State) :
    (∃ e, xformFinalCheck count payload s = some e ∧ exec (.xformFinal count payload) s = .next (raiseErr e s)) ∨
      (xformFinalCheck count payload s = none ∧
        ((∃ d, (finalTransform (payloadRead payload 0 count.toNat) s).1 = .error d ∧
            exec (.xformFinal count payload) s =
              .next (raiseErr (.pad d)
                { (finalTransform (payloadRead payload 0 count.toNat) s).2 with st := .done })) ∨
          ∃ out, (finalTransform (payloadRead payload 0 count.toNat) s).1 = .ok out ∧
            exec (.xformFinal count payload) s =
              .next (finish out { (finalTransform (payloadRead payload 0 count.toNat) s).2 with st := .done }))) := by
  simp only [exec, execXformFinal]
  cases xformFinalCheck count payload s with
  | some e => exact .inl ⟨e, rfl, rfl⟩
  | none =>
    refine .inr ⟨rfl, ?_⟩
    cases h : (finalTransform (payloadRead payload 0 count.toNat) s).1 with
    | error d => exact .inl ⟨d, rfl, rfl⟩
    | ok out => exact .inr ⟨out, rfl, rfl⟩

theorem execGetInfo_eq (s : State) : exec .getInfo s = .next (respond (okResponse s.infoWord []) s) := rfl

theorem execDispose_eq (s : State) : exec .dispose s = .next (respond (okResponse 0 []) (resetState s)) := rfl

/-- R203: the error of an INIT is BUSY or one of ERR_CONFIG's; nothing else. -/
theorem initCheck_error_status {o : InitOps} {s : State} {e : Err} (h : initCheck o s = .error e) :
    e = .busy ∨ e.status = 0x03 := by
  unfold initCheck at h
  repeat' split at h
  all_goals first
    | exact .inl (Except.error.inj h).symm
    | exact .inr (by rw [← Except.error.inj h]; rfl)
    | exact absurd h (by simp)

/-- R205: the errors of XFORM_BLOCK. -/
theorem xformBlockCheck_some {count ocap : Word} {payload : Bytes} {s : State} {e : Err}
    (h : xformBlockCheck count ocap payload s = some e) :
    e = .notConfigured ∨ e = .finished ∨ e = .count ∨ e = .inputShort ∨ e = .outputShort := by
  unfold xformBlockCheck at h
  repeat' split at h
  all_goals simp_all

/-- R206: the errors of XFORM_FINAL before the padding check. -/
theorem xformFinalCheck_some {count : Word} {payload : Bytes} {s : State} {e : Err}
    (h : xformFinalCheck count payload s = some e) : e = .notConfigured ∨ e = .finished ∨ e = .inputShort := by
  unfold xformFinalCheck at h
  repeat' split at h
  all_goals simp_all

/-- Everything one step can do: nothing, a hardware reset, the error of a record that is no command, or a command. -/
theorem step_cases (s : State) :
    (takeRequest s = none ∧ step s = .next s) ∨
      (∃ t, takeRequest s = some (.hardwareReset, t) ∧ step s = .next (resetState t)) ∨
        ∃ c t, takeRequest s = some (.command c, t) ∧
          ((∃ e, decode c = .error e ∧ step s = .next (raiseErr (Err.ofDecode e) t)) ∨
            ∃ i, decode c = .ok i ∧ step s = exec i t) := by
  unfold step
  rcases takeRequest s with _ | ⟨_ | _, t⟩
  · exact .inl ⟨rfl, rfl⟩
  · rename_i c
    refine .inr (.inr ⟨c, t, rfl, ?_⟩)
    cases h : decode c with
    | error e => exact .inl ⟨e, rfl, by simp only [h]⟩
    | ok i => exact .inr ⟨i, rfl, by simp only [h]⟩
  · exact .inr (.inl ⟨t, rfl, rfl⟩)

end Sys2Proof.Machine
end

