-- ==== Sys2Proof/Laws/PerInstr.lean ====
section
/-! SUPPORT. A statement about every command as syntax, one lemma per constructor. -/

namespace Sys2Proof.Laws

/-- The `mask` and `match` of the command's row in spec/opcode_table.json. -/
def tableRow : Instr → Word × Word
  | .initEnc _ => (0xFF000000, 0x01000000)
  | .initDec _ => (0xFF000000, 0x02000000)
  | .xformBlock _ _ _ => (0xFFFFFFFF, 0x10000000)
  | .xformFinal _ _ => (0xFFFFFFFF, 0x11000000)
  | .getInfo => (0xFFFFFFFF, 0x20000000)
  | .dispose => (0xFFFFFFFF, 0x30000000)

/-- The encoded `CMD` word matches the command's row of the opcode table. -/
def TableMatch.Statement (i : Instr) : Prop := (encode i).cmd &&& (tableRow i).1 = (tableRow i).2

/-- The INIT layout R72 under the mask of the opcode byte. -/
theorem encodeInit_masked (opc : BitVec 8) (o : InitOps) :
    (encodeInit opc o).cmd &&& 0xFF000000 = opc ++ (0 : BitVec 24) := by
  apply BitVec.eq_of_getLsbD_eq
  intro k hk
  have hmask : ∀ n : Nat, n < 32 → (0xFF000000 : BitVec 32).getLsbD n = decide (24 ≤ n) := by decide
  simp only [encodeInit, BitVec.getLsbD_and, BitVec.getLsbD_append, hmask k hk]
  by_cases h : 24 ≤ k
  · have e : k - 8 - 8 - 4 - 4 = k - 24 := by omega
    simp [h, e, show ¬ k < 8 by omega, show ¬ k - 8 < 8 by omega, show ¬ k - 8 - 8 < 4 by omega,
      show ¬ k - 8 - 8 - 4 < 4 by omega]
  · simp [h, show k < 24 by omega]

theorem TableMatch.initEnc (o : InitOps) : TableMatch.Statement (.initEnc o) :=
  (encodeInit_masked 0x01#8 o).trans (show 0x01#8 ++ (0 : BitVec 24) = 0x01000000 by decide)

theorem TableMatch.initDec (o : InitOps) : TableMatch.Statement (.initDec o) :=
  (encodeInit_masked 0x02#8 o).trans (show 0x02#8 ++ (0 : BitVec 24) = 0x02000000 by decide)

theorem TableMatch.xformBlock (count ocap : Word) (payload : Bytes) :
    TableMatch.Statement (.xformBlock count ocap payload) :=
  show plainCmd 0x10#8 &&& 0xFFFFFFFF = 0x10000000 by decide

theorem TableMatch.xformFinal (count : Word) (payload : Bytes) : TableMatch.Statement (.xformFinal count payload) :=
  show plainCmd 0x11#8 &&& 0xFFFFFFFF = 0x11000000 by decide

theorem TableMatch.getInfo : TableMatch.Statement .getInfo :=
  show plainCmd 0x20#8 &&& 0xFFFFFFFF = 0x20000000 by decide

theorem TableMatch.dispose : TableMatch.Statement .dispose :=
  show plainCmd 0x30#8 &&& 0xFFFFFFFF = 0x30000000 by decide

end Sys2Proof.Laws
end

