-- ==== Sys2Proof/Machine/Assembler.lean ====
section
/-! DEFINITION. The text syntax for command programs (30_encoding.md R86): "one command per line: the mnemonic, then
`key=value` operands, in any order". A line assembles to a command record by R72 to R79. The machine never reads this
text: the block receives command records (R62). -/

namespace Sys2Proof.Machine

/-- Cut a text at every character that `sep` holds of. -/
def splitAtChars (sep : Char → Bool) : List Char → List (List Char)
  | [] => [[]]
  | c :: cs =>
    match splitAtChars sep cs with
    | [] => [[c]]
    | w :: ws => if sep c then [] :: w :: ws else (c :: w) :: ws

/-- The words of a line, its comment removed: "`#` starts a comment that runs to the end of the line". R86 does not say
what separates the words of a line. DESIGN CHOICE (assumption 13): a blank, a tab or a carriage return, one or more of
them, so that a line may also end in a carriage return. -/
def lineWords (line : List Char) : List (List Char) :=
  (splitAtChars (fun c => c == ' ' || c == '\t' || c == '\r') (line.takeWhile (· != '#'))).filter (fun w => !w.isEmpty)

/-- One operand `key=value`: the two sides of its first `=`. -/
def splitOperand (w : List Char) : Option (List Char × List Char) :=
  match w.dropWhile (· != '=') with
  | [] => none
  | _ :: value => some (w.takeWhile (· != '='), value)

/-- All operands of a line, when every word after the mnemonic is one. -/
def lineOperands : List (List Char) → Option (List (List Char × List Char))
  | [] => some []
  | w :: ws =>
    match splitOperand w, lineOperands ws with
    | some o, some os => some (o :: os)
    | _, _ => none

/-- A decimal digit. -/
def decimalDigit (c : Char) : Option Nat :=
  if '0'.toNat ≤ c.toNat ∧ c.toNat ≤ '9'.toNat then some (c.toNat - '0'.toNat) else none

/-- A hexadecimal digit, of either case. -/
def hexDigit (c : Char) : Option Nat :=
  if 'A'.toNat ≤ c.toNat ∧ c.toNat ≤ 'F'.toNat then some (c.toNat - 'A'.toNat + 10)
  else if 'a'.toNat ≤ c.toNat ∧ c.toNat ≤ 'f'.toNat then some (c.toNat - 'a'.toNat + 10)
  else decimalDigit c

/-- The number that decimal digits write, after the number `acc` of the digits before them. -/
def decimalFrom (acc : Nat) : List Char → Option Nat
  | [] => some acc
  | c :: cs =>
    match decimalDigit c with
    | some d => decimalFrom (10 * acc + d) cs
    | none => none

/-- `<n>`: one or more decimal digits. -/
def readNumber (cs : List Char) : Option Nat := if cs.isEmpty then none else decimalFrom 0 cs

/-- `<hex bytes>`: pairs of hexadecimal digits, index 0 first (R12). -/
def readBytes : List Char → Option Bytes
  | [] => some []
  | [_] => none
  | c :: d :: cs =>
    match hexDigit c, hexDigit d, readBytes cs with
    | some hi, some lo, some rest => some (BitVec.ofNat 8 (16 * hi + lo) :: rest)
    | _, _, _ => none

/-- The value of `<RABBIT|RC4>` (R76). -/
def readEngine (cs : List Char) : Option Engine :=
  if cs = "RABBIT".toList then some .rabbit
  else if cs = "RC4".toList then some .rc4
  else none

/-- The value of `<NONE|PKCS7|ZEROS|ANSIX923|ISO10126>` (R77). -/
def readPadding (cs : List Char) : Option PadMode :=
  if cs = "NONE".toList then some .noPad
  else if cs = "PKCS7".toList then some .pkcs7
  else if cs = "ZEROS".toList then some .zeros
  else if cs = "ANSIX923".toList then some .ansix923
  else if cs = "ISO10126".toList then some .iso10126
  else none

/-- The operands of a line: each key is one of `keys` and none stands twice. -/
def keysLegal (keys : List (List Char)) (ops : List (List Char × List Char)) : Bool :=
  (ops.all fun o => keys.contains o.1) && (ops.map (·.1)).Nodup

/-- The value of an operand that must stand, read by `read`. -/
def required {α : Type} (ops : List (List Char × List Char)) (key : String) (read : List Char → Option α) : Option α :=
  match ops.lookup key.toList with
  | some v => read v
  | none => none

/-- The value of an operand that may be omitted, read by `read`, with its default. -/
def optional {α : Type} (ops : List (List Char × List Char)) (key : String) (read : List Char → Option α) (dflt : α) :
    Option α :=
  match ops.lookup key.toList with
  | some v => read v
  | none => some dflt

/-- An INIT line's operands (R86): `bs` defaults to 0, which means 16, and `mode` to 0; an omitted `iv` means IVLEN = 0.
None where a value does not fit its field. -/
def assembleInitOps (ops : List (List Char × List Char)) : Option InitOps :=
  if !keysLegal ["eng".toList, "pad".toList, "bs".toList, "mode".toList, "key".toList, "iv".toList] ops then none else
  match required ops "eng" readEngine, required ops "pad" readPadding, optional ops "bs" readNumber 0,
      optional ops "mode" readNumber 0, required ops "key" readBytes, optional ops "iv" readBytes [] with
  | some eng, some padm, some bs, some mode, some key, some iv =>
    if bs < 2 ^ 8 ∧ mode < 2 ^ 8 ∧ key.length < 2 ^ 8 ∧ iv.length < 2 ^ 16 then
      some { eng := eng.code, padm := padm.code, bsz := BitVec.ofNat 8 bs, chm := BitVec.ofNat 8 mode,
             keylen := BitVec.ofNat 8 key.length, ivlen := BitVec.ofNat 16 iv.length, payload := key ++ iv }
    else none
  | _, _, _, _, _, _ => none

/-- An XFORM_BLOCK line (R86): an omitted `count` equals the number of data bytes and an omitted `ocap` equals
`count`. -/
def assembleBlock (ops : List (List Char × List Char)) : Option Instr :=
  if !keysLegal ["count".toList, "ocap".toList, "data".toList] ops then none else
  match optional ops "data" readBytes [] with
  | none => none
  | some data =>
    match optional ops "count" readNumber data.length with
    | none => none
    | some count =>
      match optional ops "ocap" readNumber count with
      | none => none
      | some ocap =>
        if count < 2 ^ 32 ∧ ocap < 2 ^ 32 then some (.xformBlock (BitVec.ofNat 32 count) (BitVec.ofNat 32 ocap) data)
        else none

/-- An XFORM_FINAL line (R86): an omitted `count` equals the number of data bytes. -/
def assembleFinal (ops : List (List Char × List Char)) : Option Instr :=
  if !keysLegal ["count".toList, "data".toList] ops then none else
  match optional ops "data" readBytes [] with
  | none => none
  | some data =>
    match optional ops "count" readNumber data.length with
    | none => none
    | some count => if count < 2 ^ 32 then some (.xformFinal (BitVec.ofNat 32 count) data) else none

/-- The command of a line whose words are the mnemonic and its operands. None where the line is not of R86's syntax. -/
def assembleWords (mnemonic : List Char) (ops : List (List Char × List Char)) : Option Instr :=
  if mnemonic = "INIT_ENC".toList then (assembleInitOps ops).map .initEnc
  else if mnemonic = "INIT_DEC".toList then (assembleInitOps ops).map .initDec
  else if mnemonic = "XFORM_BLOCK".toList then assembleBlock ops
  else if mnemonic = "XFORM_FINAL".toList then assembleFinal ops
  else if mnemonic = "GET_INFO".toList then (if ops.isEmpty then some .getInfo else none)
  else if mnemonic = "DISPOSE".toList then (if ops.isEmpty then some .dispose else none)
  else none

/-- One line of a program (R86): no command for an empty or comment line, the record of its command otherwise. -/
def assembleLine (line : List Char) : Option (List Command) :=
  match lineWords line with
  | [] => some []
  | mnemonic :: ws =>
    match lineOperands ws with
    | none => none
    | some ops => (assembleWords mnemonic ops).map fun i => [encode i]

/-- The lines of a program in order. -/
def assembleLines : List (List Char) → Option (List Command)
  | [] => some []
  | l :: ls =>
    match assembleLine l, assembleLines ls with
    | some c, some cs => some (c ++ cs)
    | _, _ => none

/-- A whole program (R86): the command records of its lines, or none where a line is not of the syntax. -/
def assemble (text : String) : Option (List Command) := assembleLines (splitAtChars (· == '\n') text.toList)

end Sys2Proof.Machine
end

