-- ==== Sys2Proof/Tests/Slice0.lean ====
section
/-! SUPPORT. The model's own tests. Part 1 checks it against words and values that stand in the spec
(95_test_vectors.md, and the words of 30_encoding.md written out field by field). Part 2 gives, for each statement with
hypotheses, a concrete case that meets all of them. -/

set_option Elab.async false

namespace Sys2Proof.Tests

set_option Elab.async false

open Sys2Proof Sys2Proof.Machine

/-! ## Helpers -/

/-- Bytes as the spec writes them (R12): hexadecimal pairs, blanks between. -/
def hex (text : String) : Bytes := (readBytes (text.toList.filter (· != ' '))).getD []

/-- The state one step leaves, the command `c` waiting alone. -/
def after (s : State) (c : Command) : State :=
  match step { s with inbox := [.command c] } with
  | .next t => t
  | _ => s

/-- The response that step returns. -/
def reply (s : State) (c : Command) : Response := (after s c).outbox.getLastD ⟨0xFF, 0xFF, 0, []⟩

/-- The STATUS and DETAIL of that response. -/
def code (s : State) (c : Command) : Byte × Byte := ((reply s c).status, (reply s c).detail)

/-- A transform in progress, at the start of its stream; the RC4 table is the identity permutation. -/
def small (dir : Direction) (eng : Engine) (padm : PadMode) (bs : BitVec 8) : State :=
  { State.reset with
    st := .active, dir := dir, eng := eng, padm := padm, bs := bs
    rc4 := if eng = .rc4 then ⟨Rc4.identity, 0, 0⟩ else Rc4.reset }

/-- The Rabbit engine after the key and IV of program P4. -/
def keyed : Rabbit := Rabbit.reset.setup (hex "43009BC001ABE9E933C7E08715749583") (some (hex "597E26C175F573C3"))

/-- A padded decrypt that holds the block A1 A2 A3 A4, 8 bytes into its stream. -/
def holding : State :=
  { small .decrypt .rc4 .pkcs7 4 with
    laBuf := storeBlock (Vector.replicate 32 0) (hex "A1A2A3A4"), laValid := true, m := 8 }

/-- A transform that XFORM_FINAL has ended. -/
def ended : State := { small .encrypt .rc4 .noPad 16 with st := .done, m := 5 }

/-! ## 1. Well-formedness: one ill-formed command per check, which the check refuses -/

/-- A well-formed INIT for the checks to spoil. -/
def goodInit : InitOps :=
  { eng := 1, padm := 4, bsz := 0, chm := 0, keylen := 6, ivlen := 1, payload := hex "53656372657400" }

theorem test_wf_accepts : goodInit.wellFormed = true ∧ (Instr.xformFinal 2 (hex "0102")).wellFormed = true := by
  decide +kernel

theorem test_wf_engine : { goodInit with eng := 2 }.engineDefined = false ∧
    (Instr.initEnc { goodInit with eng := 2 }).wellFormed = false := by decide +kernel

theorem test_wf_padding : { goodInit with padm := 5 }.paddingDefined = false ∧
    (Instr.initDec { goodInit with padm := 5 }).wellFormed = false := by decide +kernel

theorem test_wf_mode : { goodInit with chm := 1 }.modeDefined = false ∧
    (Instr.initEnc { goodInit with chm := 1 }).wellFormed = false := by decide +kernel

theorem test_wf_payload : { goodInit with ivlen := 2 }.payloadCovers = false ∧
    (Instr.initDec { goodInit with ivlen := 2 }).wellFormed = false := by decide +kernel

theorem test_wf_count : countCovered 3 (hex "0102") = false ∧ (Instr.xformBlock 3 3 (hex "0102")).wellFormed = false ∧
    (Instr.xformFinal 3 (hex "0102")).wellFormed = false := by decide +kernel

/-! ## 2. Decoding: each word written out from the field layouts of R71 to R75 -/

/-- OPC 00000001, ENG 0001, PADM 0011, BSZ 00000100, CHM 00000000; IVLEN 3, reserved 0, KEYLEN 6 (the ANSIX923 row of
95_test_vectors.md 2.4.8, with an IV). -/
theorem test_decode_initEnc :
    decode ⟨0b00000001000100110000010000000000, 0b00000000000000110000000000000110, 0xFFFFFFFF, hex "01"⟩ =
      .ok (.initEnc { eng := 1, padm := 3, bsz := 4, chm := 0, keylen := 6, ivlen := 3, payload := [1] }) := by
  decide +kernel

/-- OPC 00000010, ENG 0000, PADM 0001, BSZ 00000000, CHM 10000001; IVLEN 8, KEYLEN 16. -/
theorem test_decode_initDec :
    decode ⟨0b00000010000000010000000010000001, 0b00000000000010000000000000010000, 0, []⟩ =
      .ok (.initDec { eng := 0, padm := 1, bsz := 0, chm := 0x81, keylen := 16, ivlen := 8, payload := [] }) := by
  decide +kernel

/-- OPC 00010000, the other 24 bits zero; COUNT is ARG0, OCAP is ARG1. -/
theorem test_decode_xformBlock :
    decode ⟨0b00010000000000000000000000000000, 0x20, 0x21, hex "05"⟩ = .ok (.xformBlock 32 33 [5]) := by decide +kernel

/-- OPC 00010001, the other 24 bits zero; COUNT is ARG0, ARG1 is ignored. -/
theorem test_decode_xformFinal :
    decode ⟨0b00010001000000000000000000000000, 8, 0xFFFFFFFF, []⟩ = .ok (.xformFinal 8 []) := by decide +kernel

/-- OPC 00100000 and OPC 00110000; every other word and the payload ignored. -/
theorem test_decode_status :
    decode ⟨0b00100000000000000000000000000000, 1, 2, [3]⟩ = .ok .getInfo ∧
      decode ⟨0b00110000000000000000000000000000, 1, 2, [3]⟩ = .ok .dispose := by decide +kernel

/-- The opcode table's numbering: CMD is bits 31..0 and ARG0 bits 63..32; the bits above a 32-bit row are 0. -/
theorem test_decodeTableWord :
    decodeTableWord 32 0x11000000 = some (.xformFinal 0 []) ∧ decodeTableWord 32 0x03000000 = none ∧
      decodeTableWord 104 0x7E000000210000002010000000 = some (.xformBlock 32 33 [0x7E]) := by decide +kernel

/-! ## 3. The assembler (R86, 95_test_vectors.md 2.4.8 and section 3) -/

theorem test_assemble_init :
    assemble "INIT_ENC eng=RC4 pad=ANSIX923 bs=4 key=536563726574\n# a comment\n" =
      some [⟨0x01130400, 0x00000006, 0, hex "53 65 63 72 65 74"⟩] := by decide +kernel

theorem test_assemble_iv :
    assemble "INIT_DEC iv=597E26C175F573C3 pad=PKCS7 eng=RABBIT key=43009BC001ABE9E933C7E08715749583" =
      some [⟨0x02010000, 0x00080010, 0,
        hex "43 00 9B C0 01 AB E9 E9 33 C7 E0 87 15 74 95 83 59 7E 26 C1 75 F5 73 C3"⟩] := by decide +kernel

theorem test_assemble_transforms :
    assemble "XFORM_BLOCK data=A1A2A3A4 ocap=9\nXFORM_FINAL count=0 # no data\nGET_INFO\nDISPOSE" =
      some [⟨0x10000000, 4, 9, hex "A1 A2 A3 A4"⟩, ⟨0x11000000, 0, 0, []⟩, ⟨0x20000000, 0, 0, []⟩,
        ⟨0x30000000, 0, 0, []⟩] := by decide +kernel

theorem test_assemble_refuses :
    assemble "INIT_ENC eng=AES pad=NONE key=00" = none ∧ assemble "XFORM_FINAL data=0" = none ∧
      assemble "DISPOSE now" = none := by decide +kernel

/-! ## 4. The Rabbit engine (95_test_vectors.md 1.2 and 2.1) -/

/-- The counters and the carry that CounterUpdate leaves. -/
def counted (c : Vector Word 8) (carry : Bool) : Vector Word 8 × Bool :=
  let r := ({ Rabbit.reset with c := c, carry := carry } : Rabbit).counterUpdate
  (r.c, r.carry)

/-- 2.1.1, all five rows. -/
theorem test_counterUpdate :
    let notA : Vector Word 8 :=
      #v[0xB2CB2CB2, 0x2CB2CB2C, 0xCB2CB2CB, 0xB2CB2CB2, 0x2CB2CB2C, 0xCB2CB2CB, 0xB2CB2CB2, 0x2CB2CB2C]
    let ones : Vector Word 8 := Vector.replicate 8 0xFFFFFFFF
    counted (Vector.replicate 8 0) false = (rabbitA, false) ∧
      counted ones false = (rabbitA.set 0 0x4D34D34C, true) ∧ counted ones true = (rabbitA, true) ∧
      counted notA false = (ones, false) ∧ counted notA true = (Vector.replicate 8 0, true) := by decide +kernel

/-- 2.1.2, all eight rows. -/
theorem test_rabbitG :
    rabbitG 0 0 = 0 ∧ rabbitG 1 0 = 1 ∧ rabbitG 0xFFFFFFFF 0 = 0xFFFFFFFF ∧ rabbitG 0x00010000 0 = 1 ∧
      rabbitG 0x80000000 0 = 0x40000000 ∧ rabbitG 0xFFFFFFFF 1 = 0 ∧ rabbitG 0x12345678 0x9ABCDEF0 = 0x2C213949 ∧
      rabbitG 0x0000FFFF 0 = 0xFFFE0001 := by decide +kernel

/-- 2.1.3, NextState and ExtractOutput. -/
theorem test_nextState_extractOutput :
    ({ Rabbit.reset with x := #v[1, 0, 0, 0, 0, 0, 0, 0] } : Rabbit).nextState.x = #v[1, 0x100, 0x10000, 0, 0, 0, 0, 0] ∧
      ({ Rabbit.reset with x := Vector.ofFn fun i : Fin 8 => BitVec.ofNat 32 (i.val * 0x11111111) } : Rabbit).extractOutput =
        hex "55 55 33 33 55 55 77 77 55 55 33 33 55 55 77 77" := by decide +kernel

/-- 1.2, the registers after the zero key and after the zero key with the zero IV. -/
theorem test_rabbit_setup :
    let keyed := Rabbit.reset.setup (zeros 16) none
    let both := Rabbit.reset.setup (zeros 16) (some (zeros 8))
    keyed.x = #v[0x6E9E1D18, 0xF5A54E5C, 0xF8FD49C6, 0x9B94253F, 0xDCD14A79, 0x1F32FA20, 0xD2055921, 0x53F371D0] ∧
      keyed.c = #v[0xE802074F, 0x5206296D, 0x01486DF2, 0x67203CE4, 0x23AACE55, 0x26E87A8F, 0xCC2E04F2, 0xD6A0F672] ∧
      keyed.carry = true ∧
      both.x = #v[0x825CE07B, 0x12633711, 0xA0FE547B, 0x75CF0E64, 0x92EF9246, 0x89E633C7, 0x2C7442FF, 0x2C6B4782] ∧
      both.c = #v[0x1CD55487, 0x9F3AFCBB, 0xD495A2C5, 0x9BF38A18, 0x70DFA1A2, 0xFA35AF62, 0x01015226, 0x23D5C9C0] ∧
      both.carry = true := by decide +kernel

/-- 1.2, keystream of two keys without IV. -/
theorem test_rabbit_keystream :
    ((Rabbit.reset.setup (hex "ACC351DCF162FC3BFE363D2E29132891") none).draw 32).1 =
        hex "9C 51 E2 87 84 C3 7F E9 A1 27 F6 3E C8 F3 2D 3D 19 FC 54 85 AA 53 BF 96 88 5B 40 F4 61 CD 76 F5" ∧
      ((Rabbit.reset.setup (hex "43009BC001ABE9E933C7E08715749583") none).draw 16).1 =
        hex "9B 60 D0 02 FD 5C EB 32 AC CD 41 A0 CD 0D B1 0C" := by decide +kernel

/-- 1.2, keystream of the zero key with two IVs. -/
theorem test_rabbit_iv_keystream :
    ((Rabbit.reset.setup (zeros 16) (some (hex "597E26C175F573C3"))).draw 16).1 =
        hex "6D 7D 01 22 92 CC DC E0 E2 12 00 58 B9 4E CD 1F" ∧
      ((Rabbit.reset.setup (zeros 16) (some (hex "2717F4D21A56EBA6"))).draw 16).1 =
        hex "4D 10 51 A1 23 AF B6 70 BF 8D 85 05 C8 D8 5A 44" := by decide +kernel

/-! ## 5. The RC4 engine (95_test_vectors.md 1.1 item 7 and 2.2): the schedule stands in `test_initDec`, the keystream of
"Key" in `test_xformFinal_encrypt` -/

/-! ## 6. Padding (95_test_vectors.md 2.3; no value of an ISO10126 fill byte is known) -/

theorem test_pad :
    (pad .pkcs7 (hex "A1") 4 State.reset).1 = hex "A1 03 03 03" ∧
      (pad .pkcs7 (hex "A1A2A3A4") 4 State.reset).1 = hex "A1 A2 A3 A4 04 04 04 04" ∧
      (pad .zeros (hex "A1A2A3A4A5") 4 State.reset).1 = hex "A1 A2 A3 A4 A5 00 00 00" ∧
      (pad .zeros [] 4 State.reset).1 = [] ∧ (pad .ansix923 [] 4 State.reset).1 = hex "00 00 00 04" ∧
      (pad .ansix923 (hex "A1A2A3") 4 State.reset).1 = hex "A1 A2 A3 01" ∧
      (pad .iso10126 (hex "A1A2A3") 4 State.reset).1 = hex "A1 A2 A3 01" ∧
      (pad .noPad (hex "A1") 4 State.reset).1 = hex "A1" := by decide +kernel

theorem test_unpad :
    unpad .pkcs7 (hex "AA030303") 4 = .ok [0xAA] ∧ unpad .pkcs7 (hex "04040404") 4 = .ok [] ∧
      unpad .pkcs7 (hex "AA020303") 4 = .error .bytes ∧ unpad .pkcs7 (hex "AABBCC00") 4 = .error .value ∧
      unpad .pkcs7 (hex "AABBCC05") 4 = .error .value ∧ unpad .pkcs7 (zeros 5) 4 = .error .length ∧
      unpad .pkcs7 [] 4 = .error .length ∧ unpad .ansix923 (hex "AA000003") 4 = .ok [0xAA] ∧
      unpad .ansix923 (hex "AA010003") 4 = .error .nonzero ∧ unpad .iso10126 (hex "AA776603") 4 = .ok [0xAA] ∧
      unpad .zeros (zeros 8) 4 = .ok (zeros 4) ∧ unpad .zeros (hex "AA00000000000000") 4 = .ok (hex "AA000000") ∧
      unpad .zeros [] 4 = .ok [] ∧ unpad .noPad (hex "0505") 4 = .ok (hex "0505") := by decide +kernel

/-! ## 7. One step of each command (95_test_vectors.md 2.4 and section 3) -/

/-- 2.4.9: what IDLE answers to each row's record. -/
theorem test_errors_idle :
    [(⟨0x03000000, 0, 0, []⟩ : Command), ⟨0x40000000, 0, 0, []⟩, ⟨0x20000001, 0, 0, []⟩, ⟨0x10000001, 0, 0, []⟩,
      ⟨0x01101000, 0x00000106, 0, zeros 6⟩, ⟨0x01201000, 6, 0, zeros 6⟩, ⟨0x01201000, 0, 0, []⟩, ⟨0x01101000, 0, 0, []⟩,
      ⟨0x01101000, 6, 0, zeros 4⟩, ⟨0x01001000, 15, 0, zeros 15⟩, ⟨0x01101000, 33, 0, zeros 33⟩,
      ⟨0x01101000, 3, 0, zeros 3⟩, ⟨0x01001000, 0x00040010, 0, zeros 20⟩, ⟨0x01000800, 16, 0, zeros 16⟩,
      ⟨0x01102100, 6, 0, zeros 6⟩, ⟨0x01101001, 6, 0, zeros 6⟩, ⟨0x01151000, 6, 0, zeros 6⟩, ⟨0x10000000, 16, 16, zeros 16⟩,
      ⟨0x11000000, 0, 0, []⟩].map (code State.reset) =
      [(1, 1), (1, 1), (1, 2), (1, 2), (1, 2), (3, 7), (3, 7), (3, 1), (3, 8), (3, 2), (3, 2), (3, 2), (3, 3), (3, 4), (3, 4),
        (3, 5), (3, 6), (2, 1), (2, 1)] := by decide +kernel

/-- 2.4.9: what ACTIVE answers, with a block size of 16. -/
theorem test_errors_active :
    [(⟨0x01101000, 6, 0, zeros 6⟩ : Command), ⟨0x10000000, 0, 16, zeros 16⟩, ⟨0x10000000, 10, 16, zeros 16⟩,
      ⟨0x10000000, 16, 16, zeros 8⟩, ⟨0x10000000, 16, 15, zeros 16⟩, ⟨0x10000000, 16, 0, zeros 8⟩,
      ⟨0x11000000, 4, 0, zeros 3⟩].map (code (small .encrypt .rc4 .noPad 16)) =
      [(2, 3), (4, 1), (4, 1), (4, 2), (4, 3), (4, 2), (4, 2)] := by decide +kernel

/-- 2.4.9: what DONE answers; DISPOSE never fails. -/
theorem test_errors_done :
    [(⟨0x02101000, 6, 0, zeros 6⟩ : Command), ⟨0x10000000, 16, 16, zeros 16⟩, ⟨0x11000000, 0, 0, []⟩,
      ⟨0x30000000, 0, 0, []⟩].map (code ended) = [(2, 3), (2, 2), (2, 2), (0, 0)] := by decide +kernel

/-- P4, step 1: the registers after INIT_ENC of a Rabbit key with an IV. -/
theorem test_initEnc :
    let t := after State.reset
      ⟨0x01010000, 0x00080010, 0, hex "43009BC001ABE9E933C7E08715749583 597E26C175F573C3"⟩
    t.infoWord = 0x00100101 ∧ t.m = 0 ∧ t.rabbit.carry = false ∧
      t.rabbit.x =
        #v[0x6069BDF0, 0x1722AB52, 0xE04742FE, 0x76119715, 0x3D482481, 0xFD8B3D62, 0x0D3B4CF4, 0x7A52370E] ∧
      t.rabbit.c =
        #v[0x45241233, 0xE38C660C, 0x901C7EC1, 0x24318F40, 0x58AAC842, 0xD1A9D119, 0xB3FB3A9F, 0xD8A0BBE5] := by
  decide +kernel

/-- P3, step 1: INIT_DEC of the RC4 key "Secret". -/
theorem test_initDec :
    let t := after State.reset ⟨0x02111000, 6, 0, hex "536563726574"⟩
    t.infoWord = 0x00100115 ∧ t.rc4.i = 0 ∧ t.rc4.j = 0 ∧ t.rabbit = Rabbit.reset ∧
      t.rc4.s.toList.take 16 = hex "2E B5 1E 93 26 3F B8 71 A5 20 7A 0E 28 5B 4D C3" := by decide +kernel

/-- 2.4.2, step dec 1, and 2.4.10: a block of ciphertext is held, nothing is drawn. -/
theorem test_xformBlock_holds :
    let t := after (small .decrypt .rc4 .ansix923 4) ⟨0x10000000, 4, 4, hex "A1A2A3A4"⟩
    t.infoWord = 0x0004031D ∧ t.m = 0 ∧ t.laBuf.toList.take 5 = hex "A1 A2 A3 A4 00" ∧ t.rc4.i = 0 ∧
      t.outbox = [⟨0, 0, 0, []⟩] := by decide +kernel

/-- P5, step 2: Rabbit lookahead with two blocks in one command. -/
theorem test_xformBlock_lookahead :
    let t := after { small .decrypt .rabbit .pkcs7 16 with rabbit := keyed }
      ⟨0x10000000, 32, 32, hex "1BD195E94F023A38BAC6D3FECCB6CACED94B30A14730BA5A6EC4FF6203EAF078"⟩
    t.infoWord = 0x0010010D ∧ t.m = 16 ∧ t.outbox = [⟨0, 0, 16, hex "000102030405060708090A0B0C0D0E0F"⟩] ∧
      t.laBuf.toList.take 16 = hex "D9 4B 30 A1 47 30 BA 5A 6E C4 FF 62 03 EA F0 78" := by decide +kernel

/-- 1.1 item 7: RC4 "Key" (2.2.2, 2.2.3) encrypts "Plaintext". -/
theorem test_xformFinal_encrypt :
    let t := after { small .encrypt .rc4 .noPad 16 with rc4 := Rc4.ksa (hex "4B6579") }
      ⟨0x11000000, 9, 0, hex "506C61696E74657874"⟩
    t.outbox = [⟨0, 0, 9, hex "BB F3 16 E8 D9 40 AF 0A D3"⟩] ∧ t.infoWord = 0x00100012 := by decide +kernel

/-- P5, step 4: the held block and a last block of ciphertext, the pad checked and taken off. -/
theorem test_xformFinal_decrypt :
    let s := { small .decrypt .rabbit .pkcs7 16 with
      rabbit := (keyed.draw 16).2, m := 16, laValid := true
      laBuf := storeBlock (Vector.replicate 32 0) (hex "D94B30A14730BA5A6EC4FF6203EAF078") }
    let t := after s ⟨0x11000000, 16, 0, hex "EE32F847C2B0F336B2FC790178CAE5E2"⟩
    t.outbox = [⟨0, 0, 24, hex "101112131415161718191A1B1C1D1E1F2021222324252627"⟩] ∧ t.infoWord = 0x00100106 ∧
      t.m = 48 ∧ t.laBuf = Vector.replicate 32 0 ∧ t.rabbit.carry = true := by decide +kernel

/-- 2.4.8 and 2.4.10: the INFO word of a held block. -/
theorem test_getInfo :
    let t := after holding ⟨0x20000000, 0, 0, []⟩
    t.outbox = [⟨0, 0, 0x0004011D, []⟩] ∧ t.m = 8 := by decide +kernel

/-- 2.4.10: DISPOSE of a transform that holds a block leaves the reset state. -/
theorem test_dispose :
    after holding ⟨0x30000000, 0, 0, []⟩ = { State.reset with outbox := [⟨0, 0, 0, []⟩] } := by rfl

/-- R260: a hardware reset in the middle of a stream. -/
theorem test_hardwareReset : step { holding with inbox := [.hardwareReset] } = .next State.reset := by rfl

/-! ## Witnesses: for each statement with hypotheses, a concrete case that meets all of them -/

/-- The state a decoded command leaves. -/
def done (i : Instr) (s : State) : State :=
  match exec i s with
  | .next t => t
  | _ => s

/-- The response of a decoded command. -/
def said (i : Instr) (s : State) : Response := (done i s).outbox.getLastD ⟨0xFF, 0xFF, 0, []⟩

/-- `exec` always answers a next state, and `done` is that state. -/
theorem exec_eq_done (i : Instr) (s : State) : exec i s = .next (done i s) := by
  have key : ∀ o : Host.Outcome State Fault Refusal, (∃ t, o = .next t) →
      o = .next (match o with | .next t => t | _ => s) := by rintro _ ⟨t, rfl⟩; rfl
  refine key _ ?_
  cases i with
  | initEnc o => exact ⟨_, execInitEnc_eq o s⟩
  | initDec o => exact ⟨_, execInitDec_eq o s⟩
  | xformBlock count ocap payload =>
    obtain ⟨e, -, h⟩ | ⟨-, h⟩ := execXformBlock_cases count ocap payload s <;> exact ⟨_, h⟩
  | xformFinal count payload =>
    obtain ⟨e, -, h⟩ | ⟨-, ⟨d, -, h⟩ | ⟨out, -, h⟩⟩ := execXformFinal_cases count payload s <;> exact ⟨_, h⟩
  | getInfo => exact ⟨_, rfl⟩
  | dispose => exact ⟨_, rfl⟩

theorem step_next (s : State) : ∃ t, step s = .next t := by
  obtain ⟨-, h⟩ | ⟨t, -, h⟩ | ⟨c, t, -, ⟨e, -, h⟩ | ⟨i, -, h⟩⟩ := step_cases s
  · exact ⟨_, h⟩
  · exact ⟨_, h⟩
  · exact ⟨_, h⟩
  · exact ⟨_, h.trans (exec_eq_done i t)⟩

/-- What is left to evaluate for a concrete case of `Answers`. -/
theorem answers_of {i : Instr} {s : State}
    (h : (done i s).outbox = s.outbox ++ [said i s] ∧ (done i s).inbox = s.inbox) :
    Answers i s (done i s) (said i s) := ⟨exec_eq_done i s, h.1, h.2⟩

/-- A legal Rabbit INIT: the zero key with the zero IV, ISO10126, BSZ 16. -/
def rabbitOps : InitOps :=
  { eng := 0, padm := 4, bsz := 16, chm := 0, keylen := 16, ivlen := 8, payload := zeros 24 }

/-- A legal RC4 INIT at the upper bounds: a key of 32 bytes, a block size of 32. -/
def rc4Ops : InitOps := { eng := 1, padm := 1, bsz := 32, chm := 0, keylen := 32, ivlen := 0, payload := zeros 32 }

/-- A padded decrypt under RC4 with nothing held. -/
def unprimed : State := small .decrypt .rc4 .pkcs7 4

/-- An encryption under ISO10126. -/
def isoEnc : State := small .encrypt .rc4 .iso10126 4

/-- EncodeOfDecode, DecodedOperandFields: a record of each kind, its unused words not zero. -/
theorem witness_EncodeOfDecode :
    (∃ o, decode ⟨0x01151001, 0x00010020, 7, [1]⟩ = .ok (.initEnc o)) ∧
      (∃ o, decode ⟨0x02F0FFFF, 0xFFFF00FF, 7, []⟩ = .ok (.initDec o)) ∧
      decode ⟨0x10000000, 0xFFFFFFFF, 1, [2]⟩ = .ok (.xformBlock 0xFFFFFFFF 1 [2]) ∧
      decode ⟨0x11000000, 0, 7, [2]⟩ = .ok (.xformFinal 0 [2]) ∧ decode ⟨0x20000000, 7, 7, [7]⟩ = .ok .getInfo ∧
      decode ⟨0x30000000, 7, 7, [7]⟩ = .ok .dispose :=
  ⟨⟨_, rfl⟩, ⟨_, rfl⟩, by decide +kernel, by decide +kernel, by decide +kernel, by decide +kernel⟩

theorem witness_DecodedOperandFields :
    ∃ o, decode ⟨0x01FF00FF, 0x0001000F, 0, [3]⟩ = .ok (.initEnc o) ∧ o.eng = 15 ∧ o.padm = 15 ∧ o.bsz = 0 ∧
      o.chm = 255 ∧ o.keylen = 15 ∧ o.ivlen = 1 := ⟨_, rfl, by decide +kernel⟩

/-- DecodeRefusesExactly, IllegalRecordIsAnswered: a record of each class, at the ends of the reserved fields. -/
theorem witness_IllegalRecordIsAnswered :
    let first (c : Command) : State := { State.reset with inbox := [.command c] }
    (first ⟨0x03FFFFFF, 0, 0, []⟩).inbox = .command ⟨0x03FFFFFF, 0, 0, []⟩ :: [] ∧
      (0x03FFFFFF : Word).toNat / 2 ^ 24 ∉ [0x01, 0x02, 0x10, 0x11, 0x20, 0x30] ∧
      (0x01000000 : Word).toNat / 2 ^ 24 ∈ [0x01, 0x02] ∧ (0x00000100 : Word).toNat / 2 ^ 8 % 2 ^ 8 ≠ 0 ∧
      (0x02000000 : Word).toNat / 2 ^ 24 ∈ [0x01, 0x02] ∧ (0xFFFF8000 : Word).toNat / 2 ^ 8 % 2 ^ 8 ≠ 0 ∧
      (0x30800000 : Word).toNat / 2 ^ 24 ∈ [0x10, 0x11, 0x20, 0x30] ∧ (0x30800000 : Word).toNat % 2 ^ 24 ≠ 0 ∧
      code State.reset ⟨0x02000000, 0xFFFF8000, 0, []⟩ = (1, 2) ∧ code State.reset ⟨0x30800000, 0, 0, []⟩ = (1, 2) := by
  decide +kernel

theorem witness_UnusedWordsIgnored :
    (0x11000000 : Word).toNat / 2 ^ 24 ∈ [0x01, 0x02, 0x11] ∧ (0x02FFFFFF : Word).toNat / 2 ^ 24 ∈ [0x01, 0x02, 0x11] ∧
      (0x20000000 : Word).toNat / 2 ^ 24 ∈ [0x20, 0x30] ∧ (0x30000001 : Word).toNat / 2 ^ 24 ∈ [0x20, 0x30] := by
  decide

/-- StepRunsDecodedCommand, OneResponsePerCommand. -/
theorem witness_StepRunsDecodedCommand :
    let s : State := { holding with inbox := [.command ⟨0x20000000, 9, 9, [9]⟩, .hardwareReset] }
    s.inbox = .command ⟨0x20000000, 9, 9, [9]⟩ :: [.hardwareReset] ∧ decode ⟨0x20000000, 9, 9, [9]⟩ = .ok .getInfo :=
  ⟨rfl, by decide +kernel⟩

/-- StepWithoutCommand: nothing waiting, and a hardware reset waiting. -/
theorem witness_StepWithoutCommand :
    holding.inbox = [] ∧ ({ holding with inbox := [.hardwareReset] } : State).inbox = .hardwareReset :: [] := ⟨rfl, rfl⟩

/-- ResponseRecordsListed: an answer of each command, a success and an error. -/
theorem witness_ResponseRecordsListed :
    Answers (.initDec goodInit) ended (done (.initDec goodInit) ended) (said (.initDec goodInit) ended) ∧
      Answers (.xformBlock 4 4 (hex "A1A2A3A4")) unprimed (done (.xformBlock 4 4 (hex "A1A2A3A4")) unprimed)
        (said (.xformBlock 4 4 (hex "A1A2A3A4")) unprimed) ∧
      Answers (.xformFinal 0 []) holding (done (.xformFinal 0 []) holding) (said (.xformFinal 0 []) holding) ∧
      Answers .getInfo holding (done .getInfo holding) (said .getInfo holding) ∧
      Answers .dispose ended (done .dispose ended) (said .dispose ended) ∧
      (said (.initDec goodInit) ended).status = 2 ∧ (said (.xformBlock 4 4 (hex "A1A2A3A4")) unprimed).status = 0 :=
  ⟨answers_of (by decide +kernel), answers_of (by decide +kernel), answers_of (by decide +kernel),
    answers_of (by decide +kernel), answers_of (by decide +kernel), by decide +kernel, by decide +kernel⟩

/-- ConfigurationIsFixed: an XFORM_BLOCK of an encrypting ISO10126 transform, an INIT outside IDLE and a DISPOSE. -/
theorem witness_ConfigurationIsFixed :
    let b : Instr := .xformBlock 4 4 (zeros 4)
    Answers b isoEnc (done b isoEnc) (said b isoEnc) ∧ (done b isoEnc).entropyPos = 0 ∧
      Answers (.initEnc goodInit) isoEnc (done (.initEnc goodInit) isoEnc) (said (.initEnc goodInit) isoEnc) ∧
      isoEnc.st ≠ .idle ∧ Answers .dispose isoEnc (done .dispose isoEnc) (said .dispose isoEnc) :=
  ⟨answers_of (by decide +kernel), by decide +kernel, answers_of (by decide +kernel), by decide,
    answers_of (by decide +kernel)⟩

/-- RejectedCommandHasNoEffect: an XFORM_BLOCK turned away with OUTPUT_SHORT. -/
theorem witness_RejectedCommandHasNoEffect :
    let c : Command := ⟨0x10000000, 8, 7, zeros 8⟩
    let s : State := { holding with inbox := [.command c, .hardwareReset] }
    ∃ t, s.inbox = .command c :: [.hardwareReset] ∧ step s = .next t ∧ t.outbox = s.outbox ++ [⟨4, 3, 0, []⟩] ∧
      (4 : Byte) ≠ 0 ∧ (4 : Byte) ≠ 5 :=
  ⟨_, rfl, rfl, rfl, by decide, by decide⟩

/-- BlockChecksInOrder: an answer in each value of ST; `test_errors_active` shows a record for every other check. -/
theorem witness_BlockChecksInOrder :
    let i : Instr := .xformBlock 4 4 (zeros 4)
    Answers i State.reset (done i State.reset) (said i State.reset) ∧ Answers i ended (done i ended) (said i ended) ∧
      Answers i holding (done i holding) (said i holding) ∧ (said i holding).status = 0 :=
  ⟨answers_of (by decide +kernel), answers_of (by decide +kernel), answers_of (by decide +kernel), by decide +kernel⟩

/-- PaddingFailureLeavesDone: 95_test_vectors.md 2.4.7, a tail of 5 bytes, with nothing held and with a block held. -/
theorem witness_PaddingFailureLeavesDone :
    let i : Instr := .xformFinal 5 (zeros 5)
    Answers i unprimed (done i unprimed) (said i unprimed) ∧ (said i unprimed).status = 5 ∧
      Answers i holding (done i holding) (said i holding) ∧ (said i holding).status = 5 ∧
      (done i unprimed).m = 5 ∧ (done i unprimed).infoWord = 0x00040116 :=
  ⟨answers_of (by decide +kernel), by decide +kernel, answers_of (by decide +kernel), by decide +kernel,
    by decide +kernel, by decide +kernel⟩

/-- LifeCycle: INIT outside IDLE, XFORM_BLOCK in each value of ST, an XFORM_FINAL that ends in ERR_PADDING. -/
theorem witness_LifeCycle :
    let i : Instr := .xformBlock 4 4 (zeros 4)
    let f : Instr := .xformFinal 5 (zeros 5)
    Answers (.initDec goodInit) ended (done (.initDec goodInit) ended) (said (.initDec goodInit) ended) ∧ ended.st ≠ .idle ∧
      Answers i State.reset (done i State.reset) (said i State.reset) ∧ State.reset.st = .idle ∧
      Answers i ended (done i ended) (said i ended) ∧ ended.st = .done ∧ Answers i holding (done i holding) (said i holding) ∧
      holding.st = .active ∧ Answers f holding (done f holding) (said f holding) ∧ (said f holding).status = 5 :=
  ⟨witness_ResponseRecordsListed.1, by decide, witness_BlockChecksInOrder.1, rfl, witness_BlockChecksInOrder.2.1, rfl,
    witness_BlockChecksInOrder.2.2.1, rfl, witness_PaddingFailureLeavesDone.2.2.1, witness_PaddingFailureLeavesDone.2.2.2.1⟩

/-- RabbitInitCompletes, with and without an IV, BSZ 16 and BSZ 0. -/
theorem witness_RabbitInitCompletes :
    RabbitInitLegal rabbitOps .iso10126 State.reset ∧
      RabbitInitLegal { rabbitOps with ivlen := 0, bsz := 0, padm := 0 } .noPad State.reset := by
  unfold RabbitInitLegal; decide +kernel

/-- Rc4InitCompletes, at the bounds of the key length, the block size and the IV length. -/
theorem witness_Rc4InitCompletes :
    Rc4InitLegal rc4Ops .pkcs7 State.reset ∧
      Rc4InitLegal { rc4Ops with bsz := 0, keylen := 5, ivlen := 27, padm := 2 } .zeros State.reset ∧
      Rc4InitLegal { rc4Ops with bsz := 1, keylen := 1, padm := 3 } .ansix923 { State.reset with rc4MinKeyBytes := 1 } := by
  unfold Rc4InitLegal; decide +kernel

/-- InitChecksInOrder: one answer; `test_errors_idle` shows a record for every check. -/
theorem witness_InitChecksInOrder :
    Answers (.initEnc { rc4Ops with padm := 5 }) State.reset (done (.initEnc { rc4Ops with padm := 5 }) State.reset)
        (said (.initEnc { rc4Ops with padm := 5 }) State.reset) ∧
      said (.initEnc { rc4Ops with padm := 5 }) State.reset = ⟨3, 6, 0, []⟩ :=
  ⟨answers_of (by decide +kernel), by decide +kernel⟩

/-- IllFormedCommandIsRejected: an INIT, in IDLE and in ACTIVE, and an XFORM_FINAL. -/
theorem witness_IllFormedCommandIsRejected :
    let i : Instr := .initEnc { rc4Ops with chm := 1 }
    let f : Instr := .xformFinal 3 (hex "0102")
    i.wellFormed = false ∧ Answers i State.reset (done i State.reset) (said i State.reset) ∧
      Answers i holding (done i holding) (said i holding) ∧ f.wellFormed = false ∧
      Answers f holding (done f holding) (said f holding) :=
  ⟨by decide +kernel, answers_of (by decide +kernel), answers_of (by decide +kernel), by decide +kernel,
    answers_of (by decide +kernel)⟩

/-- TableStaysPermutation: a permutation. -/
theorem witness_TableStaysPermutation : Rc4.IsPermutation Rc4.identity := by
  have h : Rc4.identity.toList = (List.range 256).map (BitVec.ofNat 8) := by decide +kernel
  exact .of_eq h

/-- KsaReadsFirst256Bytes: different key materials with the same first 256 bytes. -/
theorem witness_KsaReadsFirst256Bytes :
    256 ≤ (zeros 256 ++ [1]).length ∧ 256 ≤ (zeros 256).length ∧ (zeros 256 ++ [1]).take 256 = (zeros 256).take 256 := by
  have key : ∀ n : Nat, n ≤ (zeros n ++ [1]).length ∧ n ≤ (zeros n).length ∧ (zeros n ++ [1]).take n = (zeros n).take n := by
    intro n; simp
  exact key 256

/-- RabbitDrawsAreConsecutive: a first draw that is a multiple of 16. -/
theorem witness_RabbitDrawsAreConsecutive : 48 % 16 = 0 ∧ (47 : Nat) < 48 := by decide

/-- PaddedLengths, UnpadInvertsPad: both ends of the block sizes ("AB" under BS 1 is a row of 95_test_vectors.md 2.3.1), and a
text of each kind for Zeros. -/
theorem witness_UnpadInvertsPad :
    1 ≤ 1 ∧ 1 ≤ 32 ∧ (pad .pkcs7 (hex "4142") 1 State.reset).1 = hex "414201" ∧
      unpad .pkcs7 (pad .pkcs7 (hex "4142") 32 State.reset).1 32 = .ok (hex "4142") ∧
      ([1, 0] : Bytes).getLast? = some 0 ∧ ([0, 1] : Bytes).getLast? ≠ some 0 := by decide +kernel

/-- UnpadChecksInOrder: a tail for each clause, at N = 0, N = 1, N = B and N = B + 1. -/
theorem witness_UnpadChecksInOrder :
    (zeros 5).length % 4 ≠ 0 ∧ (hex "01020300").length % 4 = 0 ∧ padByte (hex "01020300") < 1 ∧
      padByte (hex "01020305") = 4 + 1 ∧ padByte (hex "04040404") = 4 ∧ unpad .pkcs7 (hex "04040404") 4 = .ok [] ∧
      padByte (hex "04040401") = 1 ∧ unpad .pkcs7 (hex "04040401") 4 = .ok (hex "040404") ∧
      unpad .pkcs7 (hex "05040404") 4 = .error .bytes ∧ unpad .ansix923 (hex "00010004") 4 = .error .nonzero ∧
      unpad .iso10126 (hex "FFFFFF04") 4 = .ok [] := by decide +kernel

/-- ZerosTrimsAtMostOneBlock: an aligned and an unaligned tail. -/
theorem witness_ZerosTrimsAtMostOneBlock : (zeros 5).length % 4 ≠ 0 ∧ (zeros 8).length % 4 = 0 ∧ 1 ≤ 4 := by decide

/-- GetInfoCompletes: the state after reset meets the hypotheses of its last clause. -/
theorem witness_GetInfoCompletes : State.reset.st = .idle ∧ State.reset.IdleZero := ⟨rfl, fun _ => rfl⟩

/-- Pkcs7AcceptsOneCorruption: a text with a corruption that passes (01 after 02) and one that does not. -/
theorem witness_Pkcs7AcceptsOneCorruption :
    unpad .pkcs7 (hex "AABB0202") 4 = .ok (hex "AABB") ∧ unpad .pkcs7 (hex "AABB0201") 4 = .ok (hex "AABB02") ∧
      unpad .pkcs7 (hex "AABB0203") 4 = .error .bytes ∧ (1 : Byte) ≠ (hex "AABB0202").getLastD 0 ∧
      (3 : Byte) ≠ (hex "AABB0202").getLastD 0 := by decide +kernel

/-- XorKsIsItsOwnInverse: a state of each engine. -/
theorem witness_XorKsIsItsOwnInverse : holding.eng = .rc4 ∧ State.reset.eng = .rabbit := ⟨rfl, rfl⟩

theorem witness_blockSizeLegal : unprimed.BlockSizeLegal ∧ holding.BlockSizeLegal ∧
    (small .encrypt .rabbit .zeros 16).BlockSizeLegal ∧ (small .decrypt .rc4 .noPad 32).BlockSizeLegal := by
  unfold State.BlockSizeLegal; decide +kernel

/-- What the XFORM_BLOCK completions ask of the operands, in a state with a block size of 4. -/
def BlockOperandsLegal (count ocap : Word) (payload : Bytes) (s : State) : Prop :=
  count.toNat ≠ 0 ∧ count.toNat % s.bs.toNat = 0 ∧ count.toNat ≤ payload.length ∧ count ≤ ocap

/-- BlockPassThroughCompletes: an encryption, and a decryption under None. -/
theorem witness_BlockPassThroughCompletes :
    let s := small .encrypt .rc4 .pkcs7 4
    let u := small .decrypt .rc4 .noPad 4
    s.st = .active ∧ s.dir = .encrypt ∧ BlockOperandsLegal 8 8 (zeros 9) s ∧ u.st = .active ∧ u.padm = .noPad ∧
      BlockOperandsLegal 4 9 (zeros 4) u := by
  unfold BlockOperandsLegal; decide +kernel

/-- BlockLookaheadUnprimedCompletes. -/
theorem witness_BlockLookaheadUnprimedCompletes :
    unprimed.st = .active ∧ unprimed.dir = .decrypt ∧ unprimed.padm ≠ .noPad ∧ unprimed.BlockSizeLegal ∧
      unprimed.laValid = false ∧ BlockOperandsLegal 8 8 (zeros 9) unprimed :=
  ⟨rfl, rfl, by decide, witness_blockSizeLegal.1, rfl, by unfold BlockOperandsLegal; decide +kernel⟩

/-- BlockLookaheadPrimedCompletes. -/
theorem witness_BlockLookaheadPrimedCompletes :
    holding.st = .active ∧ holding.dir = .decrypt ∧ holding.padm ≠ .noPad ∧ holding.BlockSizeLegal ∧
      holding.laValid = true ∧ BlockOperandsLegal 4 4 (zeros 4) holding :=
  ⟨rfl, rfl, by decide, witness_blockSizeLegal.2.1, rfl, by unfold BlockOperandsLegal; decide +kernel⟩

/-- FinalDecryptPaddedCompletes: Zeros accepts the empty tail (95_test_vectors.md 2.4.7) and PKCS7 refuses it. -/
theorem witness_FinalDecryptPaddedCompletes :
    let z := small .decrypt .rc4 .zeros 4
    z.st = .active ∧ z.dir = .decrypt ∧ z.padm ≠ .noPad ∧ z.BlockSizeLegal ∧ (0 : Word).toNat ≤ ([] : Bytes).length ∧
      unpad z.padm (xorBytes [] (ks 0 z).1) z.bs.toNat = .ok [] ∧ unprimed.BlockSizeLegal ∧
      unpad unprimed.padm (xorBytes [] (ks 0 unprimed).1) unprimed.bs.toNat = .error .length := by
  unfold State.BlockSizeLegal; decide +kernel

/-- FinalEncryptCompletes: an empty tail and an unaligned one, under ISO10126. -/
theorem witness_FinalEncryptCompletes :
    isoEnc.st = .active ∧ isoEnc.dir = .encrypt ∧ (0 : Word).toNat ≤ ([] : Bytes).length ∧
      (1 : Word).toNat ≤ (hex "A1").length := by decide +kernel

/-- FinalDecryptPlainCompletes. -/
theorem witness_FinalDecryptPlainCompletes :
    let s := small .decrypt .rc4 .noPad 16
    s.st = .active ∧ s.dir = .decrypt ∧ s.padm = .noPad ∧ (5 : Word).toNat ≤ (zeros 5).length := by decide +kernel

/-- FinalChecksInOrder: an answer in each value of ST, and one whose payload is short. -/
theorem witness_FinalChecksInOrder :
    let f : Instr := .xformFinal 0 []
    let g : Instr := .xformFinal 1 []
    Answers f State.reset (done f State.reset) (said f State.reset) ∧ Answers f ended (done f ended) (said f ended) ∧
      Answers f holding (done f holding) (said f holding) ∧ Answers g holding (done g holding) (said g holding) ∧
      State.reset.st = .idle ∧ ended.st = .done ∧ holding.st = .active ∧
      said g holding = ⟨4, 2, 0, []⟩ :=
  ⟨answers_of (by decide +kernel), answers_of (by decide +kernel), answers_of (by decide +kernel),
    answers_of (by decide +kernel), rfl, rfl, rfl, by decide +kernel⟩

/-- A state in the middle of a stream, with a block held, that meets every invariant. -/
theorem holding_inv : holding.Inv where
  idleZero := fun h => absurd h (by decide)
  heldLegal := fun _ => ⟨rfl, rfl, by decide⟩
  positionAligned := fun _ => ⟨2, by decide +kernel⟩
  tableLegal := fun _ _ => witness_TableStaysPermutation
  blockSizeLegal := witness_blockSizeLegal.2.1
  otherEngineZero := ⟨by decide, fun _ => rfl⟩
  bufferZero := by unfold State.BufferZero; decide +kernel
  parameterLegal := ⟨by decide, by decide⟩

/-- The invariants do not read the requests that wait. -/
theorem holding_inv_waiting (requests : List Request) : ({ holding with inbox := requests } : State).Inv where
  idleZero := fun h => absurd (show holding.st = .idle from h) (by decide)
  heldLegal := holding_inv.heldLegal
  positionAligned := holding_inv.positionAligned
  tableLegal := holding_inv.tableLegal
  blockSizeLegal := holding_inv.blockSizeLegal
  otherEngineZero := holding_inv.otherEngineZero
  bufferZero := holding_inv.bufferZero
  parameterLegal := holding_inv.parameterLegal

/-- StepKeepsInv: that state, with a command waiting. -/
theorem witness_StepKeepsInv :
    let s : State := { holding with inbox := [.command (encode (.xformFinal 0 []))] }
    s.Inv ∧ ∃ t, step s = .next t := ⟨holding_inv_waiting _, step_next _⟩

/-- PositionIsAlignedAndMonotone: an XFORM_BLOCK in that state leaves it ACTIVE. -/
theorem witness_PositionIsAlignedAndMonotone :
    let i : Instr := .xformBlock 4 4 (zeros 4)
    holding.Inv ∧ holding.m.toNat + 2 ^ 33 ≤ 2 ^ 64 ∧ exec i holding = .next (done i holding) ∧ holding.st = .active ∧
      holding.m.toNat % holding.bs.toNat = 0 ∧ (done i holding).st = .active ∧ (done i holding).m.toNat = 12 :=
  ⟨holding_inv, by decide +kernel, exec_eq_done _ _, rfl, by decide +kernel, by decide +kernel, by decide +kernel⟩

/-- PositionIsNeverRead: two states that differ in M. -/
theorem witness_PositionIsNeverRead :
    let i : Instr := .xformBlock 4 4 (zeros 4)
    exec i holding = .next (done i holding) ∧
      exec i { holding with m := 0 } = .next (done i { holding with m := 0 }) :=
  ⟨exec_eq_done _ _, exec_eq_done _ _⟩

/-- ReportedRegistersFixResponseShapeButPaddedFinal: two states that GET_INFO cannot tell apart, with other engines'
registers, another held block and another position. An XFORM_BLOCK meets the first case of the conclusion; the XFORM_FINAL
of the padded decrypt meets the second, one answer a success and the other ERR_PADDING. -/
theorem witness_ReportedRegistersFixResponseShapeButPaddedFinal :
    let i : Instr := .xformBlock 4 4 (zeros 4)
    let f : Instr := .xformFinal 0 []
    let s : State := { small .decrypt .rc4 .pkcs7 1 with laValid := true, laBuf := storeBlock (Vector.replicate 32 0) [3] }
    let s' : State := { s with m := 5, laBuf := Vector.replicate 32 0 }
    SameVisible s s' ∧ s.rc4MinKeyBytes = s'.rc4MinKeyBytes ∧ Answers i s (done i s) (said i s) ∧
      Answers i s' (done i s') (said i s') ∧ (said i s).status = 0 ∧ Answers f s (done f s) (said f s) ∧
      Answers f s' (done f s') (said f s') ∧ (said f s).status = 0 ∧ (said f s').status = 5 :=
  ⟨⟨rfl, rfl, rfl, rfl, rfl, rfl⟩, rfl, answers_of (by decide +kernel), answers_of (by decide +kernel), by decide +kernel,
    answers_of (by decide +kernel), answers_of (by decide +kernel), by decide +kernel, by decide +kernel⟩

/-- EntropyReachesOnlyIsoFill: an ISO10126 XFORM_FINAL that encrypts answers from every position of the tape, and so does an
XFORM_BLOCK of the same transform. -/
theorem witness_EntropyReachesOnlyIsoFill :
    let i : Instr := .xformFinal 1 (hex "A1")
    let b : Instr := .xformBlock 4 4 (zeros 4)
    ((∃ t r, Answers i { isoEnc with entropyPos := 0 } t r) ∧ ∃ t' r', Answers i { isoEnc with entropyPos := 9 } t' r') ∧
      Answers b isoEnc (done b isoEnc) (said b isoEnc) ∧
      Answers b { isoEnc with entropyPos := 9 } (done b { isoEnc with entropyPos := 9 })
        (said b { isoEnc with entropyPos := 9 }) ∧ (said b isoEnc).status = 0 := by
  refine ⟨?_, answers_of (by decide +kernel), answers_of (by decide +kernel), by decide +kernel⟩
  have key : ∀ p : Nat, ∃ t r, Answers (.xformFinal 1 (hex "A1")) { isoEnc with entropyPos := p } t r := by
    intro p
    have h : xformFinalCheck 1 (hex "A1") { isoEnc with entropyPos := p } = none := rfl
    obtain ⟨e, he, -⟩ | ⟨-, ⟨d, hd, -⟩ | ⟨out, -, hx⟩⟩ := execXformFinal_cases 1 (hex "A1") { isoEnc with entropyPos := p }
    · rw [h] at he; cases he
    · cases hd
    · refine ⟨_, _, hx, rfl, ?_⟩
      simp [finalTransform, isoEnc, small, finalEncrypt, pad, State.reset]
  exact ⟨key 0, key 9⟩

/-- ChunkIndependencePassThrough, KeystreamXorProperty: an encryption under ISO10126 and a decryption under None; chunks at
the least and a greater length, an unaligned tail. -/
theorem witness_ChunkIndependencePassThrough :
    let chunks : List Bytes := [zeros 4, zeros 8]
    let u := small .decrypt .rc4 .noPad 4
    isoEnc.st = .active ∧ (isoEnc.dir = .encrypt ∨ isoEnc.padm = .noPad) ∧ isoEnc.BlockSizeLegal ∧
      u.st = .active ∧ (u.dir = .encrypt ∨ u.padm = .noPad) ∧ u.BlockSizeLegal ∧
      (∀ D ∈ chunks, ChunkLegal isoEnc.bs.toNat D) ∧ (∀ D ∈ chunks, ChunkLegal u.bs.toNat D) ∧
      (chunks.flatten ++ zeros 3).length + 32 < 2 ^ 32 ∧
      chunks.map List.length = [hex "01020304", hex "0102030405060708"].map List.length ∧
      (zeros 3).length = (hex "010203").length := by
  unfold State.BlockSizeLegal ChunkLegal; decide +kernel

/-- ChunkIndependenceLookahead. -/
theorem witness_ChunkIndependenceLookahead :
    let chunks : List Bytes := [zeros 4, zeros 8]
    unprimed.st = .active ∧ unprimed.dir = .decrypt ∧ unprimed.padm ≠ .noPad ∧ unprimed.BlockSizeLegal ∧
      unprimed.laValid = false ∧ (∀ D ∈ chunks, ChunkLegal unprimed.bs.toNat D) ∧
      (chunks.flatten ++ ([] : Bytes)).length + 32 < 2 ^ 32 := by
  unfold State.BlockSizeLegal ChunkLegal; decide +kernel

/-- DecryptInvertsEncrypt: Rabbit under Zeros, a plaintext of one block, sent as a block and received as a tail. -/
theorem witness_DecryptInvertsEncrypt :
    let o : InitOps := { rabbitOps with padm := 2 }
    let chunks : List Bytes := [hex "0102030405060708090A0B0C0D0E0F10"]
    RabbitInitLegal o .zeros State.reset ∧ (∀ D ∈ chunks, ChunkLegal 16 D) ∧
      (chunks.flatten ++ ([] : Bytes)).getLast? ≠ some 0 ∧ (chunks.flatten ++ ([] : Bytes)).length + 64 < 2 ^ 32 ∧
      ∃ t, execAll (.initEnc o :: streamCommands chunks []) State.reset = .next t ∧
        ([] : List Bytes).flatten ++ newOutput State.reset t = newOutput State.reset t := by
  refine ⟨by unfold RabbitInitLegal; decide +kernel, by unfold ChunkLegal; decide +kernel, by decide +kernel, by decide +kernel, ?_⟩
  have run : ∀ (is : List Instr) (s : State), ∃ t, execAll is s = .next t := by
    intro is
    induction is with
    | nil => exact fun s => ⟨s, rfl⟩
    | cons i is ih =>
      intro s
      obtain ⟨t, h⟩ := ih (done i s)
      exact ⟨t, by rw [execAll, exec_eq_done]; exact h⟩
  obtain ⟨t, h⟩ := run (.initEnc { rabbitOps with padm := 2 } ::
    streamCommands [hex "0102030405060708090A0B0C0D0E0F10"] []) State.reset
  exact ⟨t, h, rfl⟩

end Sys2Proof.Tests
end

section
/-! Every command answers, with one response (R5, R82), and a step is the meaning of the record it takes (R200). -/

namespace Sys2Proof.Machine

/-! ### Which operations leave the requests and the responses alone -/

@[simp] theorem release_inbox (s : State) : (release s).2.inbox = s.inbox := by
  obtain ⟨-, h⟩ | ⟨-, h⟩ := release_cases s <;> simp [h]

@[simp] theorem release_outbox (s : State) : (release s).2.outbox = s.outbox := by
  obtain ⟨-, h⟩ | ⟨-, h⟩ := release_cases s <;> simp [h]

@[simp] theorem engineSetup_inbox (eng : Engine) (o : InitOps) (s : State) :
    (engineSetup eng o s).inbox = s.inbox := by cases eng <;> dsimp only [engineSetup]

@[simp] theorem engineSetup_outbox (eng : Engine) (o : InitOps) (s : State) :
    (engineSetup eng o s).outbox = s.outbox := by cases eng <;> dsimp only [engineSetup]

@[simp] theorem initCommon_inbox (dir : Direction) (eng : Engine) (padm : PadMode) (o : InitOps) (s : State) :
    (initCommon dir eng padm o s).inbox = s.inbox := by simp [initCommon]

@[simp] theorem initCommon_outbox (dir : Direction) (eng : Engine) (padm : PadMode) (o : InitOps) (s : State) :
    (initCommon dir eng padm o s).outbox = s.outbox := by simp [initCommon]

/-- R205: XFORM_BLOCK's datapath in pass-through mode. -/
theorem blockTransform_passThrough {s : State} (h : s.laMode = false) (D : Bytes) :
    blockTransform D s = xorKs D s := by simp [blockTransform, h]

/-- R205: XFORM_BLOCK's datapath in lookahead mode. -/
theorem blockTransform_lookahead {s : State} (h : s.laMode = true) (D : Bytes) :
    blockTransform D s =
      ((release s).1 ++ (xorKs (D.take (D.length - s.bs.toNat)) (release s).2).1,
        hold (D.drop (D.length - s.bs.toNat)) (xorKs (D.take (D.length - s.bs.toNat)) (release s).2).2) := by
  simp [blockTransform, h]

@[simp] theorem blockTransform_inbox (D : Bytes) (s : State) : (blockTransform D s).2.inbox = s.inbox := by
  cases h : s.laMode
  · simp [blockTransform_passThrough h]
  · simp [blockTransform_lookahead h]

@[simp] theorem blockTransform_outbox (D : Bytes) (s : State) : (blockTransform D s).2.outbox = s.outbox := by
  cases h : s.laMode
  · simp [blockTransform_passThrough h]
  · simp [blockTransform_lookahead h]

/-- R206: the encrypt branch of XFORM_FINAL's datapath. -/
theorem finalTransform_encrypt {s : State} (h : s.dir = .encrypt) (D : Bytes) :
    finalTransform D s = (.ok (finalEncrypt D s).1, (finalEncrypt D s).2) := by
  simp [finalTransform, h]

/-- R206: the branch of XFORM_FINAL's datapath that decrypts under None. -/
theorem finalTransform_decryptNone {s : State} (h : s.dir = .decrypt) (hp : s.padm = .noPad) (D : Bytes) :
    finalTransform D s = (.ok (xorKs D s).1, (xorKs D s).2) := by
  simp [finalTransform, h, hp]

/-- R206: the branch of XFORM_FINAL's datapath that decrypts with padding. -/
theorem finalTransform_decryptPadded {s : State} (h : s.dir = .decrypt) (hp : s.padm ≠ .noPad) (D : Bytes) :
    finalTransform D s = (unpad s.padm (finalTail D s).1 s.bs.toNat, (finalTail D s).2) := by
  simp [finalTransform, h, hp]

/-- R206: the three branches of XFORM_FINAL are all there are. -/
theorem dir_padm_cases (s : State) :
    s.dir = .encrypt ∨ (s.dir = .decrypt ∧ s.padm = .noPad) ∨ (s.dir = .decrypt ∧ s.padm ≠ .noPad) := by
  cases s.dir
  · exact .inl rfl
  · exact .inr ((em (s.padm = .noPad)).imp (⟨rfl, ·⟩) (⟨rfl, ·⟩))

@[simp] theorem finalTransform_inbox (D : Bytes) (s : State) : (finalTransform D s).2.inbox = s.inbox := by
  obtain h | ⟨h, hp⟩ | ⟨h, hp⟩ := dir_padm_cases s
  · simp [finalTransform_encrypt h, finalEncrypt, pad_state]
  · simp [finalTransform_decryptNone h hp]
  · simp [finalTransform_decryptPadded h hp, finalTail]

@[simp] theorem finalTransform_outbox (D : Bytes) (s : State) : (finalTransform D s).2.outbox = s.outbox := by
  obtain h | ⟨h, hp⟩ | ⟨h, hp⟩ := dir_padm_cases s
  · simp [finalTransform_encrypt h, finalEncrypt, pad_state]
  · simp [finalTransform_decryptNone h hp]
  · simp [finalTransform_decryptPadded h hp, finalTail]

/-! ### Answers -/

/-- A meaning that ends in a response, on a state whose requests and responses are still those it found, answers with
that response. -/
theorem answers_respond {i : Instr} {s u : State} {r : Response} (h : exec i s = .next (respond r u))
    (hin : u.inbox = s.inbox) (hout : u.outbox = s.outbox) : Answers i s (respond r u) r :=
  ⟨h, by rw [respond_outbox, hout], by rw [respond_inbox, hin]⟩

/-- A command has one answer. -/
theorem Answers.unique {i : Instr} {s t t' : State} {r r' : Response} (h : Answers i s t r) (h' : Answers i s t' r') :
    t = t' ∧ r = r' := by
  obtain ⟨hx, hout, -⟩ := h
  obtain ⟨hx', hout', -⟩ := h'
  obtain rfl : t = t' := by simpa [hx] using hx'
  exact ⟨rfl, by simpa [hout] using hout'⟩

/-- INIT_ENC and INIT_DEC end in a response (R203, R204). -/
theorem initWith_respond (dir : Direction) (o : InitOps) (s : State) :
    ∃ r u, initWith dir o s = respond r u ∧ u.inbox = s.inbox ∧ u.outbox = s.outbox := by
  obtain ⟨e, -, h⟩ | ⟨eng, padm, -, h⟩ := initWith_cases dir o s
  · exact ⟨_, s, h, rfl, rfl⟩
  · exact ⟨_, _, h, initCommon_inbox .., initCommon_outbox ..⟩

/-- R5, R82: every command answers, in every state. -/
theorem exec_answers (i : Instr) (s : State) : ∃ t r, Answers i s t r := by
  cases i with
  | initEnc o =>
    obtain ⟨r, u, h, hin, hout⟩ := initWith_respond .encrypt o s
    exact ⟨_, r, answers_respond (by rw [execInitEnc_eq, h]) hin hout⟩
  | initDec o =>
    obtain ⟨r, u, h, hin, hout⟩ := initWith_respond .decrypt o s
    exact ⟨_, r, answers_respond (by rw [execInitDec_eq, h]) hin hout⟩
  | xformBlock count ocap payload =>
    obtain ⟨e, -, h⟩ | ⟨-, h⟩ := execXformBlock_cases count ocap payload s
    · exact ⟨_, _, answers_respond h rfl rfl⟩
    · exact ⟨_, _, answers_respond h (by simp) (by simp)⟩
  | xformFinal count payload =>
    obtain ⟨e, -, h⟩ | ⟨-, ⟨d, -, h⟩ | ⟨out, -, h⟩⟩ := execXformFinal_cases count payload s
    · exact ⟨_, _, answers_respond h rfl rfl⟩
    · exact ⟨_, _, answers_respond h (by simp) (by simp)⟩
    · exact ⟨_, _, answers_respond h (by simp) (by simp)⟩
  | getInfo => exact ⟨_, _, answers_respond (execGetInfo_eq s) rfl rfl⟩
  | dispose => exact ⟨_, _, answers_respond (execDispose_eq s) rfl rfl⟩

/-! ### The transform commands by the outcome of their checks -/

theorem exec_xformBlock_refused {count ocap : Word} {payload : Bytes} {s : State} {e : Err}
    (h : xformBlockCheck count ocap payload s = some e) :
    exec (.xformBlock count ocap payload) s = .next (raiseErr e s) := by
  simp only [exec, execXformBlock, h]

theorem exec_xformBlock_accepted {count ocap : Word} {payload : Bytes} {s : State}
    (h : xformBlockCheck count ocap payload s = none) :
    exec (.xformBlock count ocap payload) s =
      .next (finish (blockTransform (payloadRead payload 0 count.toNat) s).1
        (blockTransform (payloadRead payload 0 count.toNat) s).2) := by
  simp only [exec, execXformBlock, h]

theorem exec_xformFinal_refused {count : Word} {payload : Bytes} {s : State} {e : Err}
    (h : xformFinalCheck count payload s = some e) :
    exec (.xformFinal count payload) s = .next (raiseErr e s) := by
  simp only [exec, execXformFinal, h]

theorem exec_xformFinal_padError {count : Word} {payload : Bytes} {s u : State} {d : PadError}
    (h : xformFinalCheck count payload s = none)
    (hd : finalTransform (payloadRead payload 0 count.toNat) s = (.error d, u)) :
    exec (.xformFinal count payload) s = .next (raiseErr (.pad d) { u with st := .done }) := by
  simp only [exec, execXformFinal, h, hd]

theorem exec_xformFinal_accepted {count : Word} {payload out : Bytes} {s u : State}
    (h : xformFinalCheck count payload s = none)
    (hd : finalTransform (payloadRead payload 0 count.toNat) s = (.ok out, u)) :
    exec (.xformFinal count payload) s = .next (finish out { u with st := .done }) := by
  simp only [exec, execXformFinal, h, hd]

/-! ### The step with a record waiting -/

/-- R58: the request that waits first is the one taken. -/
theorem takeRequest_of_inbox {s : State} {q : Request} {rest : List Request} (h : s.inbox = q :: rest) :
    takeRequest s = some (q, { s with inbox := rest }) := by simp [takeRequest, h]

/-- R200: with a record waiting first, the step refuses it or performs the command it decodes to. -/
theorem step_of_command {s : State} {c : Command} {rest : List Request} (h : s.inbox = .command c :: rest) :
    (∃ e, decode c = .error e ∧ step s = .next (raiseErr (Err.ofDecode e) { s with inbox := rest })) ∨
      ∃ i, decode c = .ok i ∧ step s = exec i { s with inbox := rest } := by
  obtain ⟨hq, -⟩ | ⟨t, hq, -⟩ | ⟨c', t, hq, hs⟩ := step_cases s <;> rw [takeRequest_of_inbox h] at hq
  · cases hq
  · cases hq
  · cases hq; exact hs

end Sys2Proof.Machine

open Sys2Proof Sys2Proof.Machine

/-- Settles O7: of the two things a step can do with a record, decoding leaves the command. -/
theorem stepRunsDecodedCommand : Obligations.StepRunsDecodedCommand := by
  intro s c rest i h hi
  obtain ⟨e, he, -⟩ | ⟨j, hj, hs⟩ := step_of_command h
  · rw [hi] at he; cases he
  · rw [hi] at hj; cases hj; exact hs

/-- Settles O10: a record that is no command gets its error's response, and a command answers (`exec_answers`). -/
theorem oneResponsePerCommand : Obligations.OneResponsePerCommand := by
  intro s c rest h
  obtain ⟨e, -, hs⟩ | ⟨i, -, hs⟩ := step_of_command h
  · exact ⟨_, _, hs, rfl, rfl⟩
  · obtain ⟨t, r, hx, hout, hin⟩ := exec_answers i { s with inbox := rest }
    exact ⟨t, r, hs.trans hx, hout, hin⟩

end

section
/-! The entropy source reaches nothing but the fill bytes of ISO10126 (R7, R155, R242): every operation but that fill
commutes with a change of the entropy position. -/

namespace Sys2Proof.Machine

/-- The state `s` with the entropy source at the position `p` (assumption 4). -/
def State.atEntropy (s : State) (p : Nat) : State := { s with entropyPos := p }

section
variable (s : State) (p : Nat)

@[simp] theorem atEntropy_rabbit : (s.atEntropy p).rabbit = s.rabbit := rfl
@[simp] theorem atEntropy_rc4 : (s.atEntropy p).rc4 = s.rc4 := rfl
@[simp] theorem atEntropy_st : (s.atEntropy p).st = s.st := rfl
@[simp] theorem atEntropy_dir : (s.atEntropy p).dir = s.dir := rfl
@[simp] theorem atEntropy_eng : (s.atEntropy p).eng = s.eng := rfl
@[simp] theorem atEntropy_padm : (s.atEntropy p).padm = s.padm := rfl
@[simp] theorem atEntropy_bs : (s.atEntropy p).bs = s.bs := rfl
@[simp] theorem atEntropy_laBuf : (s.atEntropy p).laBuf = s.laBuf := rfl
@[simp] theorem atEntropy_laValid : (s.atEntropy p).laValid = s.laValid := rfl
@[simp] theorem atEntropy_m : (s.atEntropy p).m = s.m := rfl
@[simp] theorem atEntropy_rc4MinKeyBytes : (s.atEntropy p).rc4MinKeyBytes = s.rc4MinKeyBytes := rfl
@[simp] theorem atEntropy_entropyPos : (s.atEntropy p).entropyPos = p := rfl
@[simp] theorem atEntropy_inbox : (s.atEntropy p).inbox = s.inbox := rfl
@[simp] theorem atEntropy_outbox : (s.atEntropy p).outbox = s.outbox := rfl
@[simp] theorem atEntropy_laMode : (s.atEntropy p).laMode = s.laMode := rfl
@[simp] theorem atEntropy_heldBlock : (s.atEntropy p).heldBlock = s.heldBlock := rfl
@[simp] theorem atEntropy_infoWord : (s.atEntropy p).infoWord = s.infoWord := rfl

/-- The entropy position is no register of the block. -/
theorem sameRegisters_atEntropy : SameRegisters s (s.atEntropy p) :=
  ⟨rfl, rfl, rfl, rfl, rfl, rfl, rfl, rfl, rfl, rfl⟩

/-! ### The shared operations -/

theorem respond_atEntropy (r : Response) : respond r (s.atEntropy p) = (respond r s).atEntropy p := rfl
theorem raiseErr_atEntropy (e : Err) : raiseErr e (s.atEntropy p) = (raiseErr e s).atEntropy p := rfl
theorem finish_atEntropy (out : Bytes) : finish out (s.atEntropy p) = (finish out s).atEntropy p := rfl
theorem resetState_atEntropy : resetState (s.atEntropy p) = (resetState s).atEntropy p := rfl
@[simp] theorem hold_atEntropy (blk : Bytes) : hold blk (s.atEntropy p) = (hold blk s).atEntropy p := rfl
@[simp] theorem clearLookahead_atEntropy : clearLookahead (s.atEntropy p) = (clearLookahead s).atEntropy p := rfl

/-- R181: the keystream and the engines do not depend on the entropy position. -/
@[simp] theorem ks_atEntropy (n : Nat) : ks n (s.atEntropy p) = ((ks n s).1, (ks n s).2.atEntropy p) := by
  unfold ks
  cases h : s.eng <;> simp only [atEntropy_eng, h] <;> rfl

@[simp] theorem xorKs_atEntropy (D : Bytes) : xorKs D (s.atEntropy p) = ((xorKs D s).1, (xorKs D s).2.atEntropy p) := by
  refine Prod.ext ?_ ?_
  · simp [xorKs_bytes]
  · simp only [xorKs_state, ks_atEntropy]; rfl

@[simp] theorem release_atEntropy : release (s.atEntropy p) = ((release s).1, (release s).2.atEntropy p) := by
  unfold release
  cases h : s.laValid <;> simp [h]

/-! ### The commands' datapaths -/

theorem initCheck_atEntropy (o : InitOps) : initCheck o (s.atEntropy p) = initCheck o s := rfl

theorem xformBlockCheck_atEntropy (count ocap : Word) (payload : Bytes) :
    xformBlockCheck count ocap payload (s.atEntropy p) = xformBlockCheck count ocap payload s := rfl

theorem xformFinalCheck_atEntropy (count : Word) (payload : Bytes) :
    xformFinalCheck count payload (s.atEntropy p) = xformFinalCheck count payload s := rfl

theorem engineSetup_atEntropy (eng : Engine) (o : InitOps) :
    engineSetup eng o (s.atEntropy p) = (engineSetup eng o s).atEntropy p := by
  cases eng <;> dsimp only [engineSetup, State.atEntropy]

theorem initCommon_atEntropy (dir : Direction) (eng : Engine) (padm : PadMode) (o : InitOps) :
    initCommon dir eng padm o (s.atEntropy p) = (initCommon dir eng padm o s).atEntropy p :=
  congrArg (fun u : State => { u with st := .active }) (engineSetup_atEntropy
    { resetState s with dir := dir, eng := eng, padm := padm, bs := blockSizeOf o.bsz } p eng o)

theorem initWith_atEntropy (dir : Direction) (o : InitOps) :
    initWith dir o (s.atEntropy p) = (initWith dir o s).atEntropy p := by
  unfold initWith
  rw [initCheck_atEntropy]
  cases initCheck o s with
  | error e => rfl
  | ok c => simp only [initCommon_atEntropy, respond_atEntropy]

theorem blockTransform_atEntropy (D : Bytes) :
    blockTransform D (s.atEntropy p) = ((blockTransform D s).1, (blockTransform D s).2.atEntropy p) := by
  cases h : s.laMode
  · simp [blockTransform_passThrough, h]
  · simp [blockTransform_lookahead, h]

theorem finalTail_atEntropy (D : Bytes) :
    finalTail D (s.atEntropy p) = ((finalTail D s).1, (finalTail D s).2.atEntropy p) := by simp [finalTail]

/-- R155: "Only ISO10126 calls the entropy source". -/
theorem pad_atEntropy {mode : PadMode} (hm : mode ≠ .iso10126) (P : Bytes) (B : Nat) :
    pad mode P B (s.atEntropy p) = ((pad mode P B s).1, (pad mode P B s).2.atEntropy p) := by
  cases mode with
  | iso10126 => exact absurd rfl hm
  | noPad | pkcs7 | zeros | ansix923 => rfl

theorem finalTransform_atEntropy (D : Bytes) (h : ¬(s.dir = .encrypt ∧ s.padm = .iso10126)) :
    finalTransform D (s.atEntropy p) = ((finalTransform D s).1, (finalTransform D s).2.atEntropy p) := by
  obtain hd | ⟨hd, hp⟩ | ⟨hd, hp⟩ := dir_padm_cases s
  · have hm : s.padm ≠ .iso10126 := fun hm => h ⟨hd, hm⟩
    simp [finalTransform_encrypt, hd, finalEncrypt, pad_atEntropy s p hm]
  · simp [finalTransform_decryptNone, hd, hp]
  · rw [finalTransform_decryptPadded hd hp, finalTransform_decryptPadded (s := s.atEntropy p) hd hp, finalTail_atEntropy]
    rfl

end

/-! ### Every command but the ISO10126 fill -/

/-- R7, R242: a command that draws no fill gives the same answer from every entropy position, and leaves states that
differ in that position alone. -/
theorem Answers.atEntropy {i : Instr} {s t : State} {r : Response} (h : Answers i s t r)
    (hi : ¬(IsFinal i ∧ s.dir = .encrypt ∧ s.padm = .iso10126)) (p : Nat) :
    Answers i (s.atEntropy p) (t.atEntropy p) r := by
  suffices hx : exec i (s.atEntropy p) = .next (t.atEntropy p) from ⟨hx, h.2⟩
  obtain ⟨hx, -⟩ := h
  cases i with
  | initEnc o =>
    rw [execInitEnc_eq] at hx ⊢
    cases hx
    rw [initWith_atEntropy]
  | initDec o =>
    rw [execInitDec_eq] at hx ⊢
    cases hx
    rw [initWith_atEntropy]
  | xformBlock count ocap payload =>
    obtain ⟨e, hc, hs⟩ | ⟨hc, hs⟩ := execXformBlock_cases count ocap payload s
    · cases hs.symm.trans hx
      rw [← xformBlockCheck_atEntropy s p] at hc
      rw [exec_xformBlock_refused hc, raiseErr_atEntropy]
    · cases hs.symm.trans hx
      rw [← xformBlockCheck_atEntropy s p] at hc
      rw [exec_xformBlock_accepted hc, blockTransform_atEntropy, finish_atEntropy]
  | xformFinal count payload =>
    have hiso : ¬(s.dir = .encrypt ∧ s.padm = .iso10126) := fun hs => hi ⟨⟨_, _, rfl⟩, hs⟩
    have hdata := finalTransform_atEntropy s p (payloadRead payload 0 count.toNat) hiso
    obtain ⟨e, hc, hs⟩ | ⟨hc, ⟨d, hd, hs⟩ | ⟨out, hd, hs⟩⟩ := execXformFinal_cases count payload s <;>
      rw [← xformFinalCheck_atEntropy s p] at hc
    · cases hs.symm.trans hx
      rw [exec_xformFinal_refused hc, raiseErr_atEntropy]
    · cases hs.symm.trans hx
      rw [hd] at hdata
      exact exec_xformFinal_padError hc hdata
    · cases hs.symm.trans hx
      rw [hd] at hdata
      exact exec_xformFinal_accepted hc hdata
  | getInfo =>
    rw [execGetInfo_eq] at hx ⊢
    cases hx
    rw [atEntropy_infoWord, respond_atEntropy]
  | dispose =>
    rw [execDispose_eq] at hx ⊢
    cases hx
    rw [resetState_atEntropy, respond_atEntropy]


/-! ### The ISO10126 fill -/

/-- R182: the registers after a keystream XOR depend on how many bytes there are, not on which. -/
theorem xorKs_state_congr {D E : Bytes} (h : D.length = E.length) (s : State) : (xorKs D s).2 = (xorKs E s).2 := by
  rw [xorKs_state, xorKs_state, h]

/-- R182: each byte of a keystream XOR depends on the input's byte at its own position. -/
theorem xorKs_getD_congr {D E : Bytes} (h : D.length = E.length) (s : State) {k : Nat} (hk : D[k]? = E[k]?) :
    (xorKs D s).1.getD k 0 = (xorKs E s).1.getD k 0 := by
  simp [xorKs_bytes, xorBytes, List.getElem?_zipWith, h, hk]

theorem padIso10126_length (D : Bytes) (B : Nat) (R : Bytes) :
    (padIso10126 D B R).length = D.length + R.length + 1 := by simp [padIso10126, Nat.add_assoc]

/-- R155: the fill stands between the data and the count byte, so those two are the same under every fill of one
length. -/
theorem padIso10126_getElem?_congr (D : Bytes) (B : Nat) {R R' : Bytes} (hR : R.length = R'.length) {k : Nat}
    (hk : k < D.length ∨ k = D.length + R.length) : (padIso10126 D B R)[k]? = (padIso10126 D B R')[k]? := by
  unfold padIso10126
  obtain hdata | rfl := hk
  · simp [List.getElem?_append_left, hdata, List.append_assoc]
  · rw [List.getElem?_append_right (by simp), List.getElem?_append_right (by simp [hR])]
    simp [hR]

/-- R155: the ISO10126 paddings from two entropy positions have one length. -/
theorem pad_iso10126_length_atEntropy (D : Bytes) (B : Nat) (s : State) (p : Nat) :
    (pad .iso10126 D B (s.atEntropy p)).1.length = (pad .iso10126 D B s).1.length := by
  simp [pad, padIso10126_length]

/-- R155: the ISO10126 paddings from two entropy positions agree on the data and on the count byte. -/
theorem pad_iso10126_getElem?_atEntropy (D : Bytes) (B : Nat) (s : State) (p : Nat) {k : Nat}
    (hk : k < D.length ∨ k + 1 = (pad .iso10126 D B s).1.length) :
    (pad .iso10126 D B (s.atEntropy p)).1[k]? = (pad .iso10126 D B s).1[k]? := by
  refine padIso10126_getElem?_congr D B (by simp) (hk.imp_right fun hlast => ?_)
  simp only [pad, padIso10126_length, entropy_length] at hlast ⊢
  omega

/-- R206: the encrypt branch of XFORM_FINAL XORs the padded text; besides the registers that this writes, only the
entropy position moves. -/
theorem finalEncrypt_eq (D : Bytes) (s : State) :
    finalEncrypt D s =
      ((xorKs (pad s.padm D s.bs.toNat s).1 s).1,
        (xorKs (pad s.padm D s.bs.toNat s).1 s).2.atEntropy
          (s.entropyPos + entropyAsked s.padm s.bs.toNat D.length)) := by
  have hstate : (pad s.padm D s.bs.toNat s).2 =
      s.atEntropy (s.entropyPos + entropyAsked s.padm s.bs.toNat D.length) := pad_state ..
  simp only [finalEncrypt, hstate, xorKs_atEntropy]

/-- Two responses that differ at most in the bytes of OUT after the first `n` and before the last. -/
def SameButFill (n : Nat) (r r' : Response) : Prop :=
  r.status = r'.status ∧ r.detail = r'.detail ∧ r.result = r'.result ∧ r.out.length = r'.out.length ∧
    ∀ k, k < n ∨ k + 1 = r.out.length → r.out.getD k 0 = r'.out.getD k 0

theorem SameButFill.refl (n : Nat) (r : Response) : SameButFill n r r :=
  ⟨rfl, rfl, rfl, rfl, fun _ _ => rfl⟩

/-- Successes whose outputs have one length report the same RESULT (R82, assumption 5). -/
theorem sameButFill_okResponse {n : Nat} {out out' : Bytes} (hlen : out.length = out'.length)
    (hbytes : ∀ k, k < n ∨ k + 1 = out.length → out.getD k 0 = out'.getD k 0) :
    SameButFill n (okResponse (resultOf out.length) out) (okResponse (resultOf out'.length) out') :=
  ⟨rfl, rfl, congrArg resultOf hlen, hlen, hbytes⟩

/-- R206: an XFORM_FINAL that passes its checks finds COUNT payload bytes. -/
theorem length_payloadRead_of_xformFinalCheck {count : Word} {payload : Bytes} {s : State}
    (h : xformFinalCheck count payload s = none) : (payloadRead payload 0 count.toNat).length = count.toNat := by
  have hle : ¬ payload.length < count.toNat := fun hlt => by
    unfold xformFinalCheck at h
    split_ifs at h
  simp only [payloadRead, List.drop_zero, List.length_take]
  omega

/-- R206: an encrypting XFORM_FINAL that passes its checks answers with the encrypted text. -/
theorem answers_xformFinal_encrypt {count : Word} {payload D : Bytes} {s : State}
    (hc : xformFinalCheck count payload s = none) (hD : payloadRead payload 0 count.toNat = D)
    (hdir : s.dir = .encrypt) :
    Answers (.xformFinal count payload) s
      (finish (finalEncrypt D s).1 { (finalEncrypt D s).2 with st := .done })
      (okResponse (resultOf (finalEncrypt D s).1.length) (finalEncrypt D s).1) :=
  answers_respond (exec_xformFinal_accepted hc (by rw [hD, finalTransform_encrypt hdir]))
    (by simp [finalEncrypt_eq]) (by simp [finalEncrypt_eq])

/-- R155, R242: from two entropy positions, an encrypting XFORM_FINAL under ISO10126 answers alike but for the fill, and
leaves the same registers. -/
theorem isoFinal_answers_sameButFill {count : Word} {payload : Bytes} {s t t' : State} {r r' : Response} {p : Nat}
    (hdir : s.dir = .encrypt) (hm : s.padm = .iso10126) (h : Answers (.xformFinal count payload) s t r)
    (h' : Answers (.xformFinal count payload) (s.atEntropy p) t' r') :
    SameButFill count.toNat r r' ∧ SameRegisters t t' := by
  cases hc : xformFinalCheck count payload s with
  | some e =>
    obtain ⟨rfl, rfl⟩ := h.unique (answers_respond (exec_xformFinal_refused hc) rfl rfl)
    obtain ⟨rfl, rfl⟩ := h'.unique (answers_respond (exec_xformFinal_refused hc) rfl rfl)
    exact ⟨.refl _ _, sameRegisters_atEntropy _ _⟩
  | none =>
    have hcount := length_payloadRead_of_xformFinalCheck hc
    generalize hD : payloadRead payload 0 count.toNat = D at hcount
    obtain ⟨rfl, rfl⟩ := h.unique (answers_xformFinal_encrypt hc hD hdir)
    obtain ⟨rfl, rfl⟩ := h'.unique (answers_xformFinal_encrypt (s := s.atEntropy p) hc hD hdir)
    have hlen := pad_iso10126_length_atEntropy D s.bs.toNat s p
    simp only [finalEncrypt_eq, atEntropy_padm, atEntropy_bs, hm, xorKs_atEntropy, xorKs_state_congr hlen]
    refine ⟨sameButFill_okResponse (by simp [hlen]) fun k hk => ?_, ⟨rfl, rfl, rfl, rfl, rfl, rfl, rfl, rfl, rfl, rfl⟩⟩
    rw [xorKs_length, ← hcount] at hk
    exact xorKs_getD_congr hlen.symm s (pad_iso10126_getElem?_atEntropy D s.bs.toNat s p hk).symm

end Sys2Proof.Machine

open Sys2Proof Sys2Proof.Machine

/-- Settles O56: every command commutes with a change of the entropy position (`Answers.atEntropy`) but the XFORM_FINAL
that draws the fill, whose bytes lie between the data and the count byte (`isoFinal_answers_sameButFill`). -/
theorem entropyReachesOnlyIsoFill : Obligations.EntropyReachesOnlyIsoFill := by
  intro i s t t' r r' p h h'
  by_cases hiso : IsFinal i ∧ s.dir = .encrypt ∧ s.padm = .iso10126
  · obtain ⟨⟨count, payload, rfl⟩, hdir, hm⟩ := hiso
    obtain ⟨⟨hstatus, hdetail, hresult, hlen, hbytes⟩, hregs⟩ := isoFinal_answers_sameButFill hdir hm h h'
    refine ⟨hstatus, hdetail, hresult, hlen, hregs, fun hn => absurd ⟨⟨_, _, rfl⟩, hdir, hm⟩ hn, ?_⟩
    rintro _ _ ⟨⟩ k hk -
    exact hbytes k hk
  · obtain ⟨rfl, rfl⟩ := h'.unique (h.atEntropy hiso p)
    exact ⟨rfl, rfl, rfl, rfl, sameRegisters_atEntropy t p, fun _ => rfl, fun _ _ _ _ _ _ => rfl⟩

end

section
/-! The state after reset (R40, R260), and the two steps that take no command. -/

namespace Sys2Proof.Machine

/-- R260: ResetState leaves the registers of the reset state, and the model's own fields as they were. -/
theorem resetState_eq (s : State) :
    resetState s = { State.reset with
      rc4MinKeyBytes := s.rc4MinKeyBytes, entropyPos := s.entropyPos, inbox := s.inbox, outbox := s.outbox } := by
  rw [resetState, counterConstants_eq s.rabbit.a ⟨rabbitA, rfl⟩]
  rfl

/-- R240: nothing is taken from an empty inbox. -/
theorem takeRequest_of_empty {s : State} (h : s.inbox = []) : takeRequest s = none := by simp [takeRequest, h]

/-- R240, R246: with nothing waiting, the step is the one that holds the state. -/
theorem step_of_empty {s : State} (h : s.inbox = []) : step s = .next s := by
  obtain ⟨-, hs⟩ | ⟨t, hq, -⟩ | ⟨c, t, hq, -⟩ := step_cases s
  · exact hs
  · rw [takeRequest_of_empty h] at hq; cases hq
  · rw [takeRequest_of_empty h] at hq; cases hq

/-- R260: with a hardware reset waiting first, the step is ResetState. -/
theorem step_of_hardwareReset {s : State} {rest : List Request} (h : s.inbox = .hardwareReset :: rest) :
    step s = .next (resetState { s with inbox := rest }) := by
  obtain ⟨hq, -⟩ | ⟨t, hq, hs⟩ | ⟨c, t, hq, -⟩ := step_cases s <;> rw [takeRequest_of_inbox h] at hq
  · cases hq
  · cases hq; exact hs
  · cases hq

end Sys2Proof.Machine

open Sys2Proof Sys2Proof.Machine

/-- Settles O8: the inbox decides which step is taken, and ResetState is the reset state but for the model's own fields
(`resetState_eq`). -/
theorem stepWithoutCommand : Obligations.StepWithoutCommand := by
  intro s rest
  refine ⟨step_of_empty, fun h => ?_⟩
  rw [step_of_hardwareReset h, resetState_eq]

/-- Settles O50: each register of the reset state is written out in its definition, the three register files and the
table as copies of 0. -/
theorem resetValues : Obligations.ResetValues := by
  refine ⟨fun j => ⟨?_, ?_⟩, rfl, rfl, fun k => ?_, rfl, rfl, rfl, rfl, rfl, rfl, rfl, fun k => ?_, rfl, rfl⟩ <;>
    exact Vector.getElem_replicate _

end

section
/-! The RC4 table stays a permutation (R25, R131, R132). -/

namespace Sys2Proof.Machine

/-- R131: the table that key scheduling starts from lists 0..255 in order. -/
theorem identity_isPermutation : Rc4.IsPermutation Rc4.identity :=
  .of_eq (by
    rw [Rc4.identity, Vector.toList_ofFn, List.ofFn_eq_map, ← List.map_coe_finRange_eq_range, List.map_map]
    rfl)

/-- R131: every run of the scheduling loop only swaps. -/
theorem ksaStep_foldl_isPermutation (K : Bytes) (is : List Nat) (p : Vector Byte 256 × Byte)
    (h : Rc4.IsPermutation p.1) : Rc4.IsPermutation (is.foldl (Rc4.ksaStep K) p).1 := by
  induction is generalizing p with
  | nil => exact h
  | cons i is ih => exact ih _ (swap_isPermutation h _ _)

theorem ksa_isPermutation (K : Bytes) : Rc4.IsPermutation (Rc4.ksa K).s :=
  ksaStep_foldl_isPermutation K _ _ identity_isPermutation

theorem prga_isPermutation {r : Rc4} (h : Rc4.IsPermutation r.s) : Rc4.IsPermutation r.prga.2.s :=
  prga_s r ▸ swap_isPermutation h _ _

theorem rc4_draw_isPermutation (n : Nat) {r : Rc4} (h : Rc4.IsPermutation r.s) :
    Rc4.IsPermutation (r.draw n).2.s := by
  induction n generalizing r with
  | zero => exact h
  | succ n ih => rw [rc4_draw_succ]; exact ih (prga_isPermutation h)

end Sys2Proof.Machine

open Sys2Proof Sys2Proof.Machine

/-- Settles O21: key scheduling starts from 0..255 in order, and everything after only swaps. -/
theorem tableStaysPermutation : Obligations.TableStaysPermutation :=
  ⟨fun K => ⟨ksa_isPermutation K, rfl, rfl⟩,
    fun n _ h => ⟨prga_isPermutation h, rc4_draw_isPermutation n h⟩⟩

end

section
/-! What a command's answer says: the state and the response of each command by the outcome of its checks (R200), and
the moves of ST (R27). -/

namespace Sys2Proof.Machine

/-! ### The checks by the value of ST -/

/-- R203: INIT's first check is BUSY, outside IDLE; in IDLE it finds errors of ERR_CONFIG alone. -/
theorem initCheck_error {o : InitOps} {s : State} {e : Err} (h : initCheck o s = .error e) :
    (s.st ≠ .idle ∧ e = .busy) ∨ (s.st = .idle ∧ e.status = 3) := by
  unfold initCheck at h
  by_cases hst : s.st = .idle
  · rw [if_neg (not_not.mpr hst)] at h
    refine .inr ⟨hst, ?_⟩
    repeat' split at h
    all_goals cases h <;> rfl
  · rw [if_pos hst] at h
    exact .inl ⟨hst, (Except.error.inj h).symm⟩

/-- R203, R31: what an INIT that passes its checks has found, as far as the invariants need it. -/
theorem initCheck_ok {o : InitOps} {s : State} {eng : Engine} {padm : PadMode} (h : initCheck o s = .ok (eng, padm)) :
    s.st = .idle ∧ blockSizeLegal eng (blockSizeOf o.bsz).toNat = true := by
  unfold initCheck at h
  by_cases hst : s.st = .idle
  · rw [if_neg (not_not.mpr hst)] at h
    refine ⟨hst, ?_⟩
    repeat' split at h
    all_goals cases h
    simp_all only [Bool.not_eq_true', Bool.not_eq_false]
  · rw [if_pos hst] at h
    cases h

/-- R205: XFORM_BLOCK is NOT_CONFIGURED in IDLE, FINISHED in DONE, and finds errors of ERR_DATA alone while ACTIVE. -/
theorem xformBlockCheck_error {count ocap : Word} {payload : Bytes} {s : State} {e : Err}
    (h : xformBlockCheck count ocap payload s = some e) :
    (s.st = .idle ∧ e = .notConfigured) ∨ (s.st = .done ∧ e = .finished) ∨ (s.st = .active ∧ e.status = 4) := by
  unfold xformBlockCheck at h
  cases hst : s.st with
  | idle => exact .inl ⟨rfl, by simpa [hst] using h.symm⟩
  | done => exact .inr (.inl ⟨rfl, by simpa [hst] using h.symm⟩)
  | active =>
    refine .inr (.inr ⟨rfl, ?_⟩)
    simp only [hst, reduceCtorEq, if_false] at h
    split_ifs at h <;> cases h <;> rfl

/-- R205: what an XFORM_BLOCK that passes its checks has found. -/
theorem xformBlockCheck_none {count ocap : Word} {payload : Bytes} {s : State}
    (h : xformBlockCheck count ocap payload s = none) :
    s.st = .active ∧ count.toNat ≠ 0 ∧ s.bs.toNat ∣ count.toNat ∧ count.toNat ≤ payload.length := by
  unfold xformBlockCheck at h
  split_ifs at h with hidle hdone hcount hin _
  obtain ⟨hpos, hmod⟩ := not_or.mp hcount
  refine ⟨?_, hpos, Nat.dvd_of_mod_eq_zero (not_not.mp hmod), Nat.le_of_not_lt hin⟩
  cases hst : s.st with
  | idle => exact absurd hst hidle
  | active => rfl
  | done => exact absurd hst hdone

/-- R205: an XFORM_BLOCK that passes its checks finds COUNT payload bytes. -/
theorem length_payloadRead_of_xformBlockCheck {count ocap : Word} {payload : Bytes} {s : State}
    (h : xformBlockCheck count ocap payload s = none) : (payloadRead payload 0 count.toNat).length = count.toNat := by
  obtain ⟨-, -, -, hle⟩ := xformBlockCheck_none h
  simpa [payloadRead] using hle

/-- R206: XFORM_FINAL is NOT_CONFIGURED in IDLE, FINISHED in DONE, and finds errors of ERR_DATA alone while ACTIVE. -/
theorem xformFinalCheck_error {count : Word} {payload : Bytes} {s : State} {e : Err}
    (h : xformFinalCheck count payload s = some e) :
    (s.st = .idle ∧ e = .notConfigured) ∨ (s.st = .done ∧ e = .finished) ∨ (s.st = .active ∧ e.status = 4) := by
  unfold xformFinalCheck at h
  cases hst : s.st with
  | idle => exact .inl ⟨rfl, by simpa [hst] using h.symm⟩
  | done => exact .inr (.inl ⟨rfl, by simpa [hst] using h.symm⟩)
  | active =>
    refine .inr (.inr ⟨rfl, ?_⟩)
    simp only [hst, reduceCtorEq, if_false] at h
    split_ifs at h
    cases h
    rfl

/-- R206: an XFORM_FINAL passes its checks only while ACTIVE. -/
theorem xformFinalCheck_none {count : Word} {payload : Bytes} {s : State} (h : xformFinalCheck count payload s = none) :
    s.st = .active := by
  unfold xformFinalCheck at h
  split_ifs at h with hidle hdone _
  cases hst : s.st with
  | idle => exact absurd hst hidle
  | active => rfl
  | done => exact absurd hst hdone

/-! ### Answers, command by command -/

/-- A next state is part of an answer. -/
theorem answers_of_exec {i : Instr} {s t : State} (h : exec i s = .next t) : ∃ r, Answers i s t r := by
  obtain ⟨t', r, ha⟩ := exec_answers i s
  obtain ⟨hx, -⟩ := id ha
  cases hx.symm.trans h
  exact ⟨r, ha⟩

/-- The answer of a meaning that ends in a response. -/
theorem Answers.of_respond {i : Instr} {s t u : State} {r r' : Response} (h : Answers i s t r)
    (hx : exec i s = .next (respond r' u)) (hout : u.outbox = s.outbox) : t = respond r' u ∧ r = r' := by
  obtain ⟨ht, hr, -⟩ := h
  cases ht.symm.trans hx
  exact ⟨rfl, by simpa [hout] using hr.symm⟩

/-- R203, R204: everything an INIT answers. -/
theorem Answers.init_cases {i : Instr} {dir : Direction} {o : InitOps} {s t : State} {r : Response}
    (h : Answers i s t r) (hx : exec i s = .next (initWith dir o s)) :
    (∃ e, initCheck o s = .error e ∧ t = raiseErr e s ∧ r = errResponse e) ∨
      ∃ eng padm, initCheck o s = .ok (eng, padm) ∧
        t = respond (okResponse 0 []) (initCommon dir eng padm o s) ∧ r = okResponse 0 [] := by
  obtain ⟨e, hc, hw⟩ | ⟨eng, padm, hc, hw⟩ := initWith_cases dir o s <;> rw [hw] at hx
  · exact .inl ⟨e, hc, h.of_respond hx rfl⟩
  · exact .inr ⟨eng, padm, hc, h.of_respond hx (initCommon_outbox ..)⟩

/-- R205: everything XFORM_BLOCK answers. -/
theorem Answers.xformBlock_cases {count ocap : Word} {payload : Bytes} {s t : State} {r : Response}
    (h : Answers (.xformBlock count ocap payload) s t r) :
    (∃ e, xformBlockCheck count ocap payload s = some e ∧ t = raiseErr e s ∧ r = errResponse e) ∨
      (xformBlockCheck count ocap payload s = none ∧ ∃ D, D = payloadRead payload 0 count.toNat ∧
        t = finish (blockTransform D s).1 (blockTransform D s).2 ∧
          r = okResponse (resultOf (blockTransform D s).1.length) (blockTransform D s).1) := by
  obtain ⟨e, hc, hx⟩ | ⟨hc, hx⟩ := execXformBlock_cases count ocap payload s
  · exact .inl ⟨e, hc, h.of_respond hx rfl⟩
  · exact .inr ⟨hc, _, rfl, h.of_respond hx (blockTransform_outbox ..)⟩

/-- R206: everything XFORM_FINAL answers. -/
theorem Answers.xformFinal_cases {count : Word} {payload : Bytes} {s t : State} {r : Response}
    (h : Answers (.xformFinal count payload) s t r) :
    (∃ e, xformFinalCheck count payload s = some e ∧ t = raiseErr e s ∧ r = errResponse e) ∨
      (xformFinalCheck count payload s = none ∧ ∃ D, D = payloadRead payload 0 count.toNat ∧
        ((∃ d, (finalTransform D s).1 = .error d ∧
            t = raiseErr (.pad d) { (finalTransform D s).2 with st := .done } ∧ r = errResponse (.pad d)) ∨
          ∃ out, (finalTransform D s).1 = .ok out ∧
            t = finish out { (finalTransform D s).2 with st := .done } ∧
            r = okResponse (resultOf out.length) out)) := by
  obtain ⟨e, hc, hx⟩ | ⟨hc, ⟨d, hd, hx⟩ | ⟨out, hd, hx⟩⟩ := execXformFinal_cases count payload s
  · exact .inl ⟨e, hc, h.of_respond hx rfl⟩
  · exact .inr ⟨hc, _, rfl, .inl ⟨d, hd, h.of_respond hx (finalTransform_outbox ..)⟩⟩
  · exact .inr ⟨hc, _, rfl, .inr ⟨out, hd, h.of_respond hx (finalTransform_outbox ..)⟩⟩

/-- R207: what GET_INFO answers. -/
theorem Answers.getInfo {s t : State} {r : Response} (h : Answers .getInfo s t r) :
    t = respond (okResponse s.infoWord []) s ∧ r = okResponse s.infoWord [] :=
  h.of_respond (execGetInfo_eq s) rfl

/-- R208: what DISPOSE answers. -/
theorem Answers.dispose {s t : State} {r : Response} (h : Answers .dispose s t r) :
    t = respond (okResponse 0 []) (resetState s) ∧ r = okResponse 0 [] :=
  h.of_respond (execDispose_eq s) rfl

/-! ### The moves of ST -/

/-- The state `u` has the configuration of `s`: ST, DIR, ENG, PADM, BS and the parameter of R6. -/
structure SameConfig (s u : State) : Prop where
  st : u.st = s.st
  dir : u.dir = s.dir
  eng : u.eng = s.eng
  padm : u.padm = s.padm
  bs : u.bs = s.bs
  rc4MinKeyBytes : u.rc4MinKeyBytes = s.rc4MinKeyBytes

theorem SameConfig.refl (s : State) : SameConfig s s := ⟨rfl, rfl, rfl, rfl, rfl, rfl⟩

theorem SameConfig.trans {s u v : State} (h : SameConfig s u) (h' : SameConfig u v) : SameConfig s v :=
  ⟨h'.st.trans h.st, h'.dir.trans h.dir, h'.eng.trans h.eng, h'.padm.trans h.padm, h'.bs.trans h.bs,
    h'.rc4MinKeyBytes.trans h.rc4MinKeyBytes⟩

/-- R182: a keystream XOR leaves the configuration alone. -/
theorem xorKs_sameConfig (D : Bytes) (s : State) : SameConfig s (xorKs D s).2 :=
  ⟨xorKs_st .., xorKs_dir .., xorKs_eng .., xorKs_padm .., xorKs_bs .., xorKs_rc4MinKeyBytes ..⟩

theorem hold_sameConfig (blk : Bytes) (s : State) : SameConfig s (hold blk s) :=
  ⟨hold_st .., hold_dir .., hold_eng .., hold_padm .., hold_bs .., hold_rc4MinKeyBytes ..⟩

theorem clearLookahead_sameConfig (s : State) : SameConfig s (clearLookahead s) := ⟨rfl, rfl, rfl, rfl, rfl, rfl⟩

theorem release_sameConfig (s : State) : SameConfig s (release s).2 := by
  obtain ⟨-, h⟩ | ⟨-, h⟩ := release_cases s <;> rw [h]
  · exact (xorKs_sameConfig ..).trans (clearLookahead_sameConfig _)
  · exact .refl s

/-- R205: XFORM_BLOCK's datapath leaves the configuration alone. -/
theorem blockTransform_sameConfig (D : Bytes) (s : State) : SameConfig s (blockTransform D s).2 := by
  cases h : s.laMode
  · rw [blockTransform_passThrough h]
    exact xorKs_sameConfig ..
  · rw [blockTransform_lookahead h]
    exact (release_sameConfig s).trans ((xorKs_sameConfig ..).trans (hold_sameConfig ..))

/-- R206: XFORM_FINAL's datapath leaves the configuration alone. -/
theorem finalTransform_sameConfig (D : Bytes) (s : State) : SameConfig s (finalTransform D s).2 := by
  obtain h | ⟨h, hp⟩ | ⟨h, hp⟩ := dir_padm_cases s
  · rw [finalTransform_encrypt h, finalEncrypt_eq]
    exact (xorKs_sameConfig (pad s.padm D s.bs.toNat s).1 s).trans ⟨rfl, rfl, rfl, rfl, rfl, rfl⟩
  · rw [finalTransform_decryptNone h hp]
    exact xorKs_sameConfig ..
  · rw [finalTransform_decryptPadded h hp]
    exact (release_sameConfig s).trans ((xorKs_sameConfig ..).trans (clearLookahead_sameConfig _))

@[simp] theorem initCommon_st (dir : Direction) (eng : Engine) (padm : PadMode) (o : InitOps) (s : State) :
    (initCommon dir eng padm o s).st = .active := rfl

/-- R27, R200: BUSY exactly outside IDLE, and ACTIVE after a success. -/
theorem init_lifeCycle {i : Instr} {dir : Direction} {o : InitOps} {s t : State} {r : Response}
    (hx : exec i s = .next (initWith dir o s)) (h : Answers i s t r) :
    (s.st ≠ .idle ↔ (r.status, r.detail) = (2, 3)) ∧ (s.st = .idle → r.status ≠ 2) ∧
      t.st = if r.status = 0 then .active else s.st := by
  obtain ⟨e, hc, rfl, rfl⟩ | ⟨eng, padm, hc, rfl, rfl⟩ := h.init_cases hx
  · obtain ⟨hst, rfl⟩ | ⟨hst, he⟩ := initCheck_error hc
    · simp [hst, errResponse, Err.status, Err.detail]
    · simp [hst, errResponse, he]
  · simp [(initCheck_ok hc).1, okResponse]

end Sys2Proof.Machine

open Sys2Proof Sys2Proof.Machine

/-- Settles O15, command by command: the checks name the value of ST they refuse (`initCheck_error`,
`xformBlockCheck_error`, `xformFinalCheck_error`), and an accepted command moves ST as its answer says. -/
theorem lifeCycle : Obligations.LifeCycle := by
  intro i s t r h
  cases i with
  | initEnc o => exact init_lifeCycle (execInitEnc_eq o s) h
  | initDec o => exact init_lifeCycle (execInitDec_eq o s) h
  | xformBlock count ocap payload =>
    obtain ⟨e, hc, rfl, rfl⟩ | ⟨hc, D, -, rfl, rfl⟩ := h.xformBlock_cases
    · obtain ⟨hst, rfl⟩ | ⟨hst, rfl⟩ | ⟨hst, he⟩ := xformBlockCheck_error hc
      · simp [hst, errResponse, Err.status, Err.detail]
      · simp [hst, errResponse, Err.status, Err.detail]
      · simp [hst, errResponse, he]
    · simp [(blockTransform_sameConfig D s).st, (xformBlockCheck_none hc).1, okResponse]
  | xformFinal count payload =>
    obtain ⟨e, hc, rfl, rfl⟩ | ⟨hc, D, -, ⟨d, -, rfl, rfl⟩ | ⟨out, -, rfl, rfl⟩⟩ := h.xformFinal_cases
    · obtain ⟨hst, rfl⟩ | ⟨hst, rfl⟩ | ⟨hst, he⟩ := xformFinalCheck_error hc
      · simp [hst, errResponse, Err.status, Err.detail]
      · simp [hst, errResponse, Err.status, Err.detail]
      · simp [hst, errResponse, he]
    · simp [xformFinalCheck_none hc, errResponse, Err.status]
    · simp [xformFinalCheck_none hc, okResponse]
  | getInfo =>
    obtain ⟨rfl, rfl⟩ := h.getInfo
    exact ⟨rfl, rfl⟩
  | dispose =>
    obtain ⟨rfl, rfl⟩ := h.dispose
    exact ⟨rfl, rfl⟩

end

section
/-! The registers a successful INIT leaves (R204); how many bytes the datapaths answer, how far they move M, and what
they leave in the lookahead buffer (R33, R34, R184 to R186, R205, R206). -/

namespace Sys2Proof.Machine

/-! ### INIT -/

section
variable (dir : Direction) (eng : Engine) (padm : PadMode) (o : InitOps) (s : State)

@[simp] theorem initCommon_dir : (initCommon dir eng padm o s).dir = dir := by cases eng <;> rfl
@[simp] theorem initCommon_eng : (initCommon dir eng padm o s).eng = eng := by cases eng <;> rfl
@[simp] theorem initCommon_padm : (initCommon dir eng padm o s).padm = padm := by cases eng <;> rfl
@[simp] theorem initCommon_bs : (initCommon dir eng padm o s).bs = blockSizeOf o.bsz := by cases eng <;> rfl
@[simp] theorem initCommon_laBuf : (initCommon dir eng padm o s).laBuf = Vector.replicate 32 0 := by cases eng <;> rfl
@[simp] theorem initCommon_laValid : (initCommon dir eng padm o s).laValid = false := by cases eng <;> rfl
@[simp] theorem initCommon_m : (initCommon dir eng padm o s).m = 0 := by cases eng <;> rfl

end

/-- R180. -/
theorem laMode_iff (s : State) : s.laMode = true ↔ s.dir = .decrypt ∧ s.padm ≠ .noPad := by simp [State.laMode]

/-! ### Release -/

@[simp] theorem heldBlock_length (s : State) : s.heldBlock.length = min s.bs.toNat 32 := by simp [State.heldBlock]

theorem release_length (s : State) : (release s).1.length = if s.laValid then min s.bs.toNat 32 else 0 := by
  obtain ⟨hv, h⟩ | ⟨hv, h⟩ := release_cases s <;> simp [h, hv]

/-- R34, R185: Release moves M by the bytes it emits. -/
theorem release_m (s : State) : (release s).2.m = s.m + BitVec.ofNat 64 (release s).1.length := by
  obtain ⟨-, h⟩ | ⟨-, h⟩ := release_cases s <;> simp [h]

@[simp] theorem release_laValid (s : State) : (release s).2.laValid = false := by
  obtain ⟨-, h⟩ | ⟨hv, h⟩ := release_cases s <;> simp [h]
  exact hv

/-- R185: Release leaves the buffer zero where the buffer is zero while nothing is held. -/
theorem release_laBuf_zero {s : State} (h : s.BufferZero) (k : Fin 32) : (release s).2.laBuf[k] = 0 := by
  obtain ⟨-, hr⟩ | ⟨hv, hr⟩ := release_cases s <;> rw [hr]
  · exact Vector.getElem_replicate _
  · exact h k (.inr hv)

/-! ### XFORM_BLOCK -/

theorem blockTransform_length (D : Bytes) (s : State) :
    (blockTransform D s).1.length =
      if s.laMode then (release s).1.length + (D.length - s.bs.toNat) else D.length := by
  cases h : s.laMode
  · simp [blockTransform_passThrough h]
  · simp [blockTransform_lookahead h]

/-- R34, R205: XFORM_BLOCK moves M by the bytes it answers. -/
theorem blockTransform_m (D : Bytes) (s : State) :
    (blockTransform D s).2.m = s.m + BitVec.ofNat 64 (blockTransform D s).1.length := by
  cases h : s.laMode
  · simp [blockTransform_passThrough h]
  · simp [blockTransform_lookahead h, release_m, BitVec.ofNat_add, BitVec.add_assoc]

theorem blockTransform_length_le (D : Bytes) (s : State) : (blockTransform D s).1.length ≤ D.length + 32 := by
  rw [blockTransform_length, release_length]
  split_ifs <;> omega

/-- R34, R55: from whole blocks XFORM_BLOCK answers whole blocks. -/
theorem bs_dvd_blockTransform_length {D : Bytes} {s : State} (hbs : s.bs.toNat ≤ 32) (hD : s.bs.toNat ∣ D.length) :
    s.bs.toNat ∣ (blockTransform D s).1.length := by
  have hheld : s.bs.toNat ∣ (release s).1.length := by
    rw [release_length, min_eq_left hbs]
    split_ifs
    · exact dvd_rfl
    · exact dvd_zero _
  rw [blockTransform_length]
  split_ifs
  · exact dvd_add hheld (Nat.dvd_sub hD dvd_rfl)
  · exact hD

/-- R205: XFORM_BLOCK leaves a block held in lookahead mode, and LA_VALID as it was otherwise. -/
theorem blockTransform_laValid (D : Bytes) (s : State) : (blockTransform D s).2.laValid = (s.laMode || s.laValid) := by
  cases h : s.laMode
  · simp [blockTransform_passThrough h]
  · simp [blockTransform_lookahead h]

/-- R184, R185: Hold writes one block over a buffer that Release leaves zero. -/
theorem blockTransform_bufferZero (D : Bytes) {s : State} (h : s.BufferZero) : (blockTransform D s).2.BufferZero := by
  cases hla : s.laMode
  · rw [blockTransform_passThrough hla]
    intro k hk
    simpa using h k (by simpa using hk)
  · rw [blockTransform_lookahead hla]
    intro k hk
    have hlen : (D.drop (D.length - s.bs.toNat)).length ≤ k.val := by
      simp [(release_sameConfig s).bs] at hk ⊢
      omega
    rw [hold_laBuf, storeBlock_getElem, List.getD_eq_default _ _ hlen, xorKs_laBuf]
    exact release_laBuf_zero h k

/-! ### XFORM_FINAL -/

/-- R150 to R155: padding adds at most a block. -/
theorem pad_length_le (mode : PadMode) (P : Bytes) (B : Nat) (s : State) :
    (pad mode P B s).1.length ≤ P.length + B + 1 := by
  have hN := padCount_le B P.length
  cases mode with
  | noPad => simp [pad]; omega
  | pkcs7 => simp [pad, padPkcs7]; omega
  | zeros => simp only [pad, padZeros]; split_ifs <;> simp <;> omega
  | ansix923 => simp [pad, padAnsix923]; omega
  | iso10126 => simp [pad, padIso10126_length]; omega

/-- R34, R206: XFORM_FINAL moves M by its input and at most a block more. -/
theorem finalTransform_m (D : Bytes) (s : State) :
    ∃ n ≤ D.length + 2 ^ 8, (finalTransform D s).2.m = s.m + BitVec.ofNat 64 n := by
  have hbs := s.bs.isLt
  obtain h | ⟨h, hp⟩ | ⟨h, hp⟩ := dir_padm_cases s
  · have hpad := pad_length_le s.padm D s.bs.toNat s
    exact ⟨(pad s.padm D s.bs.toNat s).1.length, by omega, by simp [finalTransform_encrypt h, finalEncrypt_eq]⟩
  · exact ⟨D.length, by omega, by simp [finalTransform_decryptNone h hp]⟩
  · have hheld := release_length s
    refine ⟨(release s).1.length + D.length, by split_ifs at hheld <;> omega, ?_⟩
    simp [finalTransform_decryptPadded h hp, finalTail, release_m, BitVec.ofNat_add, BitVec.add_assoc]

/-- R206: XFORM_FINAL empties the lookahead buffer in lookahead mode, and leaves LA_VALID as it was otherwise. -/
theorem finalTransform_laValid (D : Bytes) (s : State) :
    (finalTransform D s).2.laValid = (s.laValid && !s.laMode) := by
  obtain h | ⟨h, hp⟩ | ⟨h, hp⟩ := dir_padm_cases s
  · simp [finalTransform_encrypt h, finalEncrypt_eq, State.laMode, h]
  · simp [finalTransform_decryptNone h hp, State.laMode, hp]
  · simp [finalTransform_decryptPadded h hp, finalTail, State.laMode, h, hp]

theorem finalTransform_bufferZero (D : Bytes) {s : State} (h : s.BufferZero) : (finalTransform D s).2.BufferZero := by
  obtain hd | ⟨hd, hp⟩ | ⟨hd, hp⟩ := dir_padm_cases s
  · rw [finalTransform_encrypt hd, finalEncrypt_eq]
    intro k hk
    simpa using h k (by simpa using hk)
  · rw [finalTransform_decryptNone hd hp]
    intro k hk
    simpa using h k (by simpa using hk)
  · rw [finalTransform_decryptPadded hd hp]
    exact fun k _ => Vector.getElem_replicate _

end Sys2Proof.Machine

end

section
/-! The invariants (R41): they hold at reset, and every step keeps them. -/

namespace Sys2Proof.Machine

/-! ### What keeps the invariants without a command -/

/-- The invariants read the registers and the parameter alone. -/
theorem State.Inv.of_sameRegisters {s t : State} (h : s.Inv) (hregs : SameRegisters s t)
    (hmin : t.rc4MinKeyBytes = s.rc4MinKeyBytes) : t.Inv := by
  obtain ⟨idleZero, heldLegal, positionAligned, tableLegal, blockSizeLegal, otherEngineZero, bufferZero,
    parameterLegal⟩ := h
  cases s
  cases t
  obtain ⟨rfl, rfl, rfl, rfl, rfl, rfl, rfl, rfl, rfl, rfl⟩ := hregs
  cases hmin
  refine ⟨fun hi => ?_, heldLegal, positionAligned, tableLegal, blockSizeLegal, otherEngineZero, bufferZero,
    parameterLegal⟩
  have hz := idleZero hi
  simp only [resetState, State.mk.injEq] at hz ⊢
  simpa using hz

theorem State.Inv.respond {s : State} (h : s.Inv) (r : Response) : (respond r s).Inv :=
  h.of_sameRegisters ⟨rfl, rfl, rfl, rfl, rfl, rfl, rfl, rfl, rfl, rfl⟩ rfl

theorem State.Inv.withInbox {s : State} (h : s.Inv) (rest : List Request) : ({ s with inbox := rest } : State).Inv :=
  h.of_sameRegisters ⟨rfl, rfl, rfl, rfl, rfl, rfl, rfl, rfl, rfl, rfl⟩ rfl

/-- R41, R260: ResetState establishes the invariants. -/
theorem resetState_inv {s : State} (h : s.ParameterLegal) : (resetState s).Inv where
  idleZero := fun _ => resetState_resetState s
  heldLegal := fun hv => Bool.noConfusion hv
  positionAligned := fun hst => Life.noConfusion hst
  tableLegal := fun hst => absurd rfl hst
  blockSizeLegal := fun hst => absurd rfl hst
  otherEngineZero := ⟨fun _ => rfl, fun he => Engine.noConfusion he⟩
  bufferZero := fun _ _ => Vector.getElem_replicate _
  parameterLegal := h

/-! ### A configured transform -/

/-- The invariants of a configured transform that only its engine and its configuration have a part in (R25, R31, R35,
R6). -/
structure State.StreamLegal (s : State) : Prop where
  tableLegal : s.eng = .rc4 → Rc4.IsPermutation s.rc4.s
  blockSizeLegal : (s.eng = .rabbit → s.bs.toNat = 16) ∧ (s.eng = .rc4 → 1 ≤ s.bs.toNat ∧ s.bs.toNat ≤ 32)
  otherEngineZero : s.OtherEngineZero
  parameterLegal : s.ParameterLegal

theorem State.Inv.streamLegal {s : State} (h : s.Inv) (hst : s.st ≠ .idle) : s.StreamLegal :=
  ⟨h.tableLegal hst, h.blockSizeLegal hst, h.otherEngineZero, h.parameterLegal⟩

/-- Outside IDLE the other invariants are those on the held block, the position and the buffer. -/
theorem State.StreamLegal.inv {s : State} (h : s.StreamLegal) (hst : s.st ≠ .idle) (hheld : s.HeldLegal)
    (hpos : s.PositionAligned) (hbuf : s.BufferZero) : s.Inv :=
  ⟨fun hi => absurd hi hst, hheld, hpos, fun _ => h.tableLegal, fun _ => h.blockSizeLegal, h.otherEngineZero, hbuf,
    h.parameterLegal⟩

/-- R31: no engine takes a block of more than 32 bytes. -/
theorem State.StreamLegal.bs_le {s : State} (h : s.StreamLegal) : s.bs.toNat ≤ 32 := by
  obtain ⟨hrabbit, hrc4⟩ := h.blockSizeLegal
  cases he : s.eng with
  | rabbit => have := hrabbit he; omega
  | rc4 => exact (hrc4 he).2

/-- They read the two engines, ENG, BS and the parameter. -/
theorem State.StreamLegal.congr {s u : State} (h : s.StreamLegal) (hc : SameConfig s u) (hrabbit : u.rabbit = s.rabbit)
    (hrc4 : u.rc4 = s.rc4) : u.StreamLegal := by
  obtain ⟨htable, hbs, hother, hmin⟩ := h
  simp only [State.OtherEngineZero, State.ParameterLegal, ← hc.eng, ← hc.bs, ← hrabbit, ← hrc4,
    ← hc.rc4MinKeyBytes] at htable hbs hother hmin
  exact ⟨htable, hbs, hother, hmin⟩

/-- R132, R181, R182: a keystream XOR draws from the bound engine, and a draw only swaps entries of the RC4 table. -/
theorem xorKs_streamLegal (D : Bytes) {s : State} (h : s.StreamLegal) : (xorKs D s).2.StreamLegal := by
  obtain ⟨htable, hbs, ⟨hrc4, hrabbit⟩, hmin⟩ := h
  simp only [xorKs_state, ks_state]
  refine ⟨fun he => ?_, hbs, ⟨fun he => ?_, fun he => ?_⟩, hmin⟩
  · have he : s.eng = .rc4 := he
    simpa [he] using rc4_draw_isPermutation _ (htable he)
  · have he : s.eng = .rabbit := he
    simpa [he] using hrc4 he
  · have he : s.eng = .rc4 := he
    simpa [he] using hrabbit he

theorem hold_streamLegal (blk : Bytes) {s : State} (h : s.StreamLegal) : (hold blk s).StreamLegal :=
  h.congr (hold_sameConfig blk s) (hold_rabbit ..) (hold_rc4 ..)

theorem clearLookahead_streamLegal {s : State} (h : s.StreamLegal) : (clearLookahead s).StreamLegal :=
  h.congr (clearLookahead_sameConfig s) rfl rfl

theorem release_streamLegal {s : State} (h : s.StreamLegal) : (release s).2.StreamLegal := by
  obtain ⟨-, hr⟩ | ⟨-, hr⟩ := release_cases s <;> rw [hr]
  · exact clearLookahead_streamLegal (xorKs_streamLegal _ h)
  · exact h

theorem blockTransform_streamLegal (D : Bytes) {s : State} (h : s.StreamLegal) :
    (blockTransform D s).2.StreamLegal := by
  cases hla : s.laMode
  · rw [blockTransform_passThrough hla]
    exact xorKs_streamLegal D h
  · rw [blockTransform_lookahead hla]
    exact hold_streamLegal _ (xorKs_streamLegal _ (release_streamLegal h))

theorem finalTransform_streamLegal (D : Bytes) {s : State} (h : s.StreamLegal) :
    (finalTransform D s).2.StreamLegal := by
  obtain hd | ⟨hd, hp⟩ | ⟨hd, hp⟩ := dir_padm_cases s
  · rw [finalTransform_encrypt hd, finalEncrypt_eq]
    exact (xorKs_streamLegal (pad s.padm D s.bs.toNat s).1 h).congr ⟨rfl, rfl, rfl, rfl, rfl, rfl⟩ rfl rfl
  · rw [finalTransform_decryptNone hd hp]
    exact xorKs_streamLegal D h
  · rw [finalTransform_decryptPadded hd hp]
    exact clearLookahead_streamLegal (xorKs_streamLegal D (release_streamLegal h))

/-! ### The position -/

/-- R34, R182: M stays a multiple of BS, reduced mod 2^64, when it moves by whole blocks. -/
theorem positionAligned_of_m_eq {s u : State} {n : Nat} (h : s.PositionAligned) (hst : s.st = .active)
    (hbs : u.bs = s.bs) (hn : s.bs.toNat ∣ n) (hm : u.m = s.m + BitVec.ofNat 64 n) : u.PositionAligned := by
  intro _
  obtain ⟨k, hk⟩ := h hst
  obtain ⟨j, rfl⟩ := hn
  exact ⟨k + j, by rw [hm, hk, hbs, ← BitVec.ofNat_add, Nat.add_mul, Nat.mul_comm j]⟩

/-! ### Every command -/

/-- R31: BS after a legal INIT. -/
theorem blockSizeLegal_cases {eng : Engine} {n : Nat} (h : blockSizeLegal eng n = true) :
    (eng = .rabbit → n = 16) ∧ (eng = .rc4 → 1 ≤ n ∧ n ≤ 32) := by
  cases eng with
  | rabbit => exact ⟨fun _ => by simpa [blockSizeLegal, Config.defaultBs] using h, fun he => Engine.noConfusion he⟩
  | rc4 =>
    refine ⟨fun he => Engine.noConfusion he, fun _ => ?_⟩
    obtain ⟨hpos, hmax⟩ := Bool.and_eq_true_iff.mp h
    exact ⟨of_decide_eq_true hpos, of_decide_eq_true hmax⟩

/-- R204, R31 to R35: a successful INIT establishes the invariants. -/
theorem initCommon_inv {dir : Direction} {eng : Engine} {padm : PadMode} {o : InitOps} {s : State}
    (h : s.ParameterLegal) (hbs : blockSizeLegal eng (blockSizeOf o.bsz).toNat = true) :
    (initCommon dir eng padm o s).Inv := by
  have hstream : (initCommon dir eng padm o s).StreamLegal := by
    cases eng with
    | rabbit =>
      exact ⟨fun he => Engine.noConfusion he, blockSizeLegal_cases hbs,
        ⟨fun _ => rfl, fun he => Engine.noConfusion he⟩, h⟩
    | rc4 =>
      exact ⟨fun _ => ksa_isPermutation _, blockSizeLegal_cases hbs,
        ⟨fun he => Engine.noConfusion he, fun _ => resetState_rabbit_reset s⟩, h⟩
  have hheld : (initCommon dir eng padm o s).HeldLegal := fun hv => by simp at hv
  have hpos : (initCommon dir eng padm o s).PositionAligned := fun _ => ⟨0, by simp⟩
  have hbuf : (initCommon dir eng padm o s).BufferZero := fun k _ => by simp
  exact hstream.inv (by simp) hheld hpos hbuf

/-- R205: a completed XFORM_BLOCK keeps the invariants: only in lookahead mode does it leave a block held, and M has
moved by whole blocks. -/
theorem blockTransform_inv {D : Bytes} {s : State} (h : s.Inv) (hst : s.st = .active) (hD : s.bs.toNat ∣ D.length) :
    (blockTransform D s).2.Inv := by
  have hc := blockTransform_sameConfig D s
  have hs : s.StreamLegal := h.streamLegal (by simp [hst])
  refine (blockTransform_streamLegal D hs).inv (by simp [hc.st, hst]) ?_ ?_ (blockTransform_bufferZero D h.bufferZero)
  · intro hv
    rw [blockTransform_laValid, Bool.or_eq_true] at hv
    rw [hc.st, hc.dir, hc.padm]
    exact hv.elim (fun hla => ⟨hst, (laMode_iff s).mp hla⟩) h.heldLegal
  · exact positionAligned_of_m_eq h.positionAligned hst hc.bs (bs_dvd_blockTransform_length hs.bs_le hD)
      (blockTransform_m D s)

/-- R206: XFORM_FINAL keeps the invariants, whether its padding check passes or not: in DONE nothing is held, since only
a transform in lookahead mode held a block. -/
theorem finalTransform_inv {D : Bytes} {s : State} (h : s.Inv) (hst : s.st = .active) :
    ({ (finalTransform D s).2 with st := .done } : State).Inv := by
  obtain ⟨htable, hbs, hother, hmin⟩ := finalTransform_streamLegal D (h.streamLegal (by simp [hst]))
  have hbuf := finalTransform_bufferZero D h.bufferZero
  refine State.StreamLegal.inv ⟨htable, hbs, hother, hmin⟩ (fun hd => Life.noConfusion hd) (fun hv => ?_)
    (fun hd => Life.noConfusion hd) hbuf
  rw [show _ = _ from finalTransform_laValid D s, Bool.and_eq_true, Bool.not_eq_true'] at hv
  obtain ⟨hheld, hla⟩ := hv
  obtain ⟨-, hmode⟩ := h.heldLegal hheld
  rw [(laMode_iff s).mpr hmode] at hla
  cases hla

theorem init_keeps_inv {i : Instr} {dir : Direction} {o : InitOps} {s t : State} {r : Response} (h : s.Inv)
    (hx : exec i s = .next (initWith dir o s)) (ha : Answers i s t r) : t.Inv := by
  obtain ⟨e, -, rfl, -⟩ | ⟨eng, padm, hc, rfl, -⟩ := ha.init_cases hx
  · exact h.respond _
  · exact (initCommon_inv h.parameterLegal (initCheck_ok hc).2).respond _

/-- R41: every command keeps the invariants. -/
theorem exec_keeps_inv {i : Instr} {s t : State} (h : s.Inv) (hx : exec i s = .next t) : t.Inv := by
  obtain ⟨r, ha⟩ := answers_of_exec hx
  cases i with
  | initEnc o => exact init_keeps_inv h (execInitEnc_eq o s) ha
  | initDec o => exact init_keeps_inv h (execInitDec_eq o s) ha
  | xformBlock count ocap payload =>
    obtain ⟨e, -, rfl, -⟩ | ⟨hc, D, hD, rfl, -⟩ := ha.xformBlock_cases
    · exact h.respond _
    · obtain ⟨hst, -, hdvd, -⟩ := xformBlockCheck_none hc
      exact (blockTransform_inv h hst (by rwa [hD, length_payloadRead_of_xformBlockCheck hc])).respond _
  | xformFinal count payload =>
    obtain ⟨e, -, rfl, -⟩ | ⟨hc, D, -, ⟨d, -, rfl, -⟩ | ⟨out, -, rfl, -⟩⟩ := ha.xformFinal_cases
    · exact h.respond _
    · exact (finalTransform_inv h (xformFinalCheck_none hc)).respond _
    · exact (finalTransform_inv h (xformFinalCheck_none hc)).respond _
  | getInfo =>
    obtain ⟨rfl, -⟩ := ha.getInfo
    exact h.respond _
  | dispose =>
    obtain ⟨rfl, -⟩ := ha.dispose
    exact (resetState_inv h.parameterLegal).respond _

end Sys2Proof.Machine

open Sys2Proof Sys2Proof.Machine

/-- Settles O51: the reset state is what ResetState leaves. -/
theorem invHoldsAtReset : Obligations.InvHoldsAtReset :=
  resetState_inv (s := State.reset) ⟨by decide, by decide⟩

/-- Settles O52: of the four things a step can do, holding the state and refusing a record leave every register, a
hardware reset establishes the invariants, and a command keeps them (`exec_keeps_inv`). -/
theorem stepKeepsInv : Obligations.StepKeepsInv := by
  intro s t h hx
  cases hin : s.inbox with
  | nil =>
    cases (step_of_empty hin).symm.trans hx
    exact h
  | cons q rest =>
    cases q with
    | hardwareReset =>
      cases (step_of_hardwareReset hin).symm.trans hx
      exact resetState_inv h.parameterLegal
    | command c =>
      obtain ⟨e, -, hs⟩ | ⟨i, -, hs⟩ := step_of_command hin
      · cases hs.symm.trans hx
        exact (h.withInbox rest).respond _
      · exact exec_keeps_inv (h.withInbox rest) (hs.symm.trans hx)

end

section
/-! The stream position M while a transform goes on (R34, R41 (c) and (e)). -/

namespace Sys2Proof.Machine

/-- From `s` to `t` M has moved forward by less than 2^33 bytes, and by whole blocks if `t` is ACTIVE. -/
def AdvancesPosition (s t : State) : Prop :=
  ∃ n < 2 ^ 33, t.m = s.m + BitVec.ofNat 64 n ∧ t.bs = s.bs ∧ (t.st = .active → s.bs.toNat ∣ n)

theorem AdvancesPosition.refl (s : State) : AdvancesPosition s s := ⟨0, by decide, by simp, rfl, fun _ => dvd_zero _⟩

theorem AdvancesPosition.respond {s t : State} (h : AdvancesPosition s t) (r : Response) :
    AdvancesPosition s (respond r t) := h

/-- R34, R205: XFORM_BLOCK moves M by the whole blocks it answers. -/
theorem blockTransform_advancesPosition {D : Bytes} {s : State} (hbs : s.bs.toNat ≤ 32) (hD : s.bs.toNat ∣ D.length)
    (hlen : D.length < 2 ^ 32) : AdvancesPosition s (blockTransform D s).2 := by
  have hle := blockTransform_length_le D s
  exact ⟨_, by omega, blockTransform_m D s, (blockTransform_sameConfig D s).bs,
    fun _ => bs_dvd_blockTransform_length hbs hD⟩

/-- R34, R206: XFORM_FINAL may move M to no multiple of BS, and ends the transform. -/
theorem finalTransform_advancesPosition {D : Bytes} {s : State} (hlen : D.length < 2 ^ 32) :
    AdvancesPosition s { (finalTransform D s).2 with st := .done } := by
  obtain ⟨n, hn, hm⟩ := finalTransform_m D s
  exact ⟨n, by omega, hm, (finalTransform_sameConfig D s).bs, fun hd => Life.noConfusion hd⟩

/-- R203: an INIT outside IDLE is refused. -/
theorem init_advancesPosition {i : Instr} {dir : Direction} {o : InitOps} {s t : State} {r : Response}
    (hx : exec i s = .next (initWith dir o s)) (ha : Answers i s t r) (hst : s.st ≠ .idle) :
    AdvancesPosition s t := by
  obtain ⟨e, -, rfl, -⟩ | ⟨eng, padm, hc, -, -⟩ := ha.init_cases hx
  · exact (AdvancesPosition.refl s).respond _
  · exact absurd (initCheck_ok hc).1 hst

/-- R34, R41 (c) and (e): every command that finds a transform and leaves one advances its position. -/
theorem exec_advancesPosition {i : Instr} {s t : State} (h : s.Inv) (hx : exec i s = .next t) (hs : s.st ≠ .idle)
    (ht : t.st ≠ .idle) : AdvancesPosition s t := by
  obtain ⟨r, ha⟩ := answers_of_exec hx
  cases i with
  | initEnc o => exact init_advancesPosition (execInitEnc_eq o s) ha hs
  | initDec o => exact init_advancesPosition (execInitDec_eq o s) ha hs
  | xformBlock count ocap payload =>
    obtain ⟨e, -, rfl, -⟩ | ⟨hc, D, hD, rfl, -⟩ := ha.xformBlock_cases
    · exact (AdvancesPosition.refl s).respond _
    · obtain ⟨-, -, hdvd, -⟩ := xformBlockCheck_none hc
      have hlen : D.length = count.toNat := hD ▸ length_payloadRead_of_xformBlockCheck hc
      exact (blockTransform_advancesPosition (h.streamLegal hs).bs_le (hlen ▸ hdvd) (hlen ▸ count.isLt)).respond _
  | xformFinal count payload =>
    obtain ⟨e, -, rfl, -⟩ | ⟨hc, D, hD, ⟨d, -, rfl, -⟩ | ⟨out, -, rfl, -⟩⟩ := ha.xformFinal_cases
    · exact (AdvancesPosition.refl s).respond _
    all_goals
      have hlen : D.length = count.toNat := hD ▸ length_payloadRead_of_xformFinalCheck hc
      exact (finalTransform_advancesPosition (hlen ▸ count.isLt)).respond _
  | getInfo =>
    obtain ⟨rfl, -⟩ := ha.getInfo
    exact (AdvancesPosition.refl s).respond _
  | dispose =>
    obtain ⟨rfl, -⟩ := ha.dispose
    exact absurd rfl ht

/-- R182: below its wrap, M moves as a number. -/
theorem toNat_add_ofNat_of_lt {m : BitVec 64} {n : Nat} (h : m.toNat + n < 2 ^ 64) :
    (m + BitVec.ofNat 64 n).toNat = m.toNat + n := by
  rw [BitVec.toNat_add, BitVec.toNat_ofNat, Nat.add_mod_mod, Nat.mod_eq_of_lt h]

end Sys2Proof.Machine

open Sys2Proof Sys2Proof.Machine

/-- Settles O53: no command moves M by 2^33 bytes, so that below the wrap the move is an addition of numbers, and of a
multiple of BS while ACTIVE (`exec_advancesPosition`). -/
theorem positionIsAlignedAndMonotone : Obligations.PositionIsAlignedAndMonotone := by
  intro i s t h hm hx
  have moved (hs : s.st ≠ .idle) (ht : t.st ≠ .idle) :
      ∃ n, t.m.toNat = s.m.toNat + n ∧ t.bs = s.bs ∧ (t.st = .active → s.bs.toNat ∣ n) := by
    obtain ⟨n, hn, htm, hbs, hdvd⟩ := exec_advancesPosition h hx hs ht
    exact ⟨n, by rw [htm, toNat_add_ofNat_of_lt (by omega)], hbs, hdvd⟩
  constructor
  · intro hs hmod ht
    obtain ⟨n, htm, hbs, hdvd⟩ := moved (by simp [hs]) (by simp [ht])
    rw [htm, hbs]
    exact Nat.mod_eq_zero_of_dvd (dvd_add (Nat.dvd_of_mod_eq_zero hmod) (hdvd ht))
  · intro hs ht
    obtain ⟨n, htm, -, -⟩ := moved hs ht
    omega

end

section
/-! The stream position is never read (R34): every operation commutes with a change of M. -/

namespace Sys2Proof.Machine

/-- The state `s` with the stream position `m`. -/
def State.atPosition (s : State) (m : BitVec 64) : State := { s with m := m }

section
variable (s : State) (m : BitVec 64)

@[simp] theorem atPosition_rabbit : (s.atPosition m).rabbit = s.rabbit := rfl
@[simp] theorem atPosition_rc4 : (s.atPosition m).rc4 = s.rc4 := rfl
@[simp] theorem atPosition_st : (s.atPosition m).st = s.st := rfl
@[simp] theorem atPosition_dir : (s.atPosition m).dir = s.dir := rfl
@[simp] theorem atPosition_eng : (s.atPosition m).eng = s.eng := rfl
@[simp] theorem atPosition_padm : (s.atPosition m).padm = s.padm := rfl
@[simp] theorem atPosition_bs : (s.atPosition m).bs = s.bs := rfl
@[simp] theorem atPosition_laValid : (s.atPosition m).laValid = s.laValid := rfl
@[simp] theorem atPosition_m : (s.atPosition m).m = m := rfl
@[simp] theorem atPosition_laMode : (s.atPosition m).laMode = s.laMode := rfl
@[simp] theorem atPosition_heldBlock : (s.atPosition m).heldBlock = s.heldBlock := rfl

/-! ### The shared operations -/

@[simp] theorem hold_atPosition (blk : Bytes) : hold blk (s.atPosition m) = (hold blk s).atPosition m := rfl
@[simp] theorem clearLookahead_atPosition : clearLookahead (s.atPosition m) = (clearLookahead s).atPosition m := rfl

/-- R181: the keystream and the engines do not depend on M. -/
theorem ks_atPosition (n : Nat) : ks n (s.atPosition m) = ((ks n s).1, (ks n s).2.atPosition m) := by
  unfold ks
  cases h : s.eng <;> simp only [atPosition_eng, h] <;> rfl

/-- R182: a keystream XOR advances M wherever it stands. -/
@[simp] theorem xorKs_atPosition (D : Bytes) :
    xorKs D (s.atPosition m) = ((xorKs D s).1, (xorKs D s).2.atPosition (m + BitVec.ofNat 64 D.length)) := by
  refine Prod.ext ?_ ?_
  · rw [xorKs_bytes, xorKs_bytes, ks_atPosition]
  · rw [xorKs_state, xorKs_state, ks_atPosition]; rfl

/-- R185. -/
theorem release_atPosition : ∃ m', release (s.atPosition m) = ((release s).1, (release s).2.atPosition m') := by
  unfold release
  cases h : s.laValid
  · exact ⟨m, by simp [h]⟩
  · exact ⟨m + BitVec.ofNat 64 s.heldBlock.length, by simp [h]⟩

/-! ### The commands' datapaths -/

/-- R205. -/
theorem blockTransform_atPosition (D : Bytes) :
    ∃ m', blockTransform D (s.atPosition m) = ((blockTransform D s).1, (blockTransform D s).2.atPosition m') := by
  cases h : s.laMode
  · exact ⟨_, by rw [blockTransform_passThrough h, blockTransform_passThrough (s := s.atPosition m) h,
      xorKs_atPosition]⟩
  · obtain ⟨m', hr⟩ := release_atPosition s m
    exact ⟨_, by rw [blockTransform_lookahead h, blockTransform_lookahead (s := s.atPosition m) h, hr, atPosition_bs,
      xorKs_atPosition, hold_atPosition]⟩

/-- R155: the padding and its entropy do not depend on M. -/
theorem pad_atPosition (mode : PadMode) (P : Bytes) (B : Nat) :
    (pad mode P B (s.atPosition m)).1 = (pad mode P B s).1 := by
  cases mode <;> rfl

/-- R206. -/
theorem finalTransform_atPosition (D : Bytes) :
    ∃ m', finalTransform D (s.atPosition m) = ((finalTransform D s).1, (finalTransform D s).2.atPosition m') := by
  obtain h | ⟨h, hp⟩ | ⟨h, hp⟩ := dir_padm_cases s
  · refine ⟨m + BitVec.ofNat 64 (pad s.padm D s.bs.toNat s).1.length, ?_⟩
    rw [finalTransform_encrypt h, finalTransform_encrypt (s := s.atPosition m) h, finalEncrypt_eq, finalEncrypt_eq,
      atPosition_padm, atPosition_bs, pad_atPosition, xorKs_atPosition]
    rfl
  · exact ⟨_, by rw [finalTransform_decryptNone h hp, finalTransform_decryptNone (s := s.atPosition m) h hp,
      xorKs_atPosition]⟩
  · obtain ⟨m', hr⟩ := release_atPosition s m
    exact ⟨_, by rw [finalTransform_decryptPadded h hp, finalTransform_decryptPadded (s := s.atPosition m) h hp,
      finalTail, finalTail, hr, xorKs_atPosition, clearLookahead_atPosition, atPosition_padm, atPosition_bs]⟩

/-- R203, R204: INIT's checks do not read M, and a successful INIT overwrites it. -/
theorem initWith_atPosition (dir : Direction) (o : InitOps) :
    ∃ m', initWith dir o (s.atPosition m) = (initWith dir o s).atPosition m' := by
  have hcheck : initCheck o (s.atPosition m) = initCheck o s := rfl
  unfold initWith
  rw [hcheck]
  cases initCheck o s with
  | error e => exact ⟨m, rfl⟩
  | ok c => exact ⟨(initCommon dir c.1 c.2 o s).m, rfl⟩

end

/-! ### Every command -/

/-- R34: from another position a command gives the same next state, responses included, but for the position. -/
theorem exec_atPosition {i : Instr} {s t : State} (hx : exec i s = .next t) (m : BitVec 64) :
    ∃ m', exec i (s.atPosition m) = .next (t.atPosition m') := by
  cases i with
  | initEnc o =>
    obtain ⟨m', h⟩ := initWith_atPosition s m .encrypt o
    cases (execInitEnc_eq o s).symm.trans hx
    exact ⟨m', (execInitEnc_eq o _).trans (congrArg _ h)⟩
  | initDec o =>
    obtain ⟨m', h⟩ := initWith_atPosition s m .decrypt o
    cases (execInitDec_eq o s).symm.trans hx
    exact ⟨m', (execInitDec_eq o _).trans (congrArg _ h)⟩
  | xformBlock count ocap payload =>
    have hcheck : xformBlockCheck count ocap payload (s.atPosition m) = xformBlockCheck count ocap payload s := rfl
    obtain ⟨m', hdata⟩ := blockTransform_atPosition s m (payloadRead payload 0 count.toNat)
    obtain ⟨e, hc, hs⟩ | ⟨hc, hs⟩ := execXformBlock_cases count ocap payload s <;> cases hs.symm.trans hx <;>
      rw [← hcheck] at hc
    · exact ⟨m, exec_xformBlock_refused hc⟩
    · exact ⟨m', by rw [exec_xformBlock_accepted hc, hdata]; rfl⟩
  | xformFinal count payload =>
    have hcheck : xformFinalCheck count payload (s.atPosition m) = xformFinalCheck count payload s := rfl
    obtain ⟨m', hdata⟩ := finalTransform_atPosition s m (payloadRead payload 0 count.toNat)
    obtain ⟨e, hc, hs⟩ | ⟨hc, ⟨d, hd, hs⟩ | ⟨out, hd, hs⟩⟩ := execXformFinal_cases count payload s <;>
      cases hs.symm.trans hx <;> rw [← hcheck] at hc
    · exact ⟨m, exec_xformFinal_refused hc⟩
    · exact ⟨m', by rw [exec_xformFinal_padError hc (hd ▸ hdata)]; rfl⟩
    · exact ⟨m', by rw [exec_xformFinal_accepted hc (hd ▸ hdata)]; rfl⟩
  | getInfo =>
    cases (execGetInfo_eq s).symm.trans hx
    exact ⟨m, rfl⟩
  | dispose =>
    cases (execDispose_eq s).symm.trans hx
    exact ⟨0, rfl⟩

end Sys2Proof.Machine

open Sys2Proof Sys2Proof.Machine

/-- Settles O54: every command commutes with a change of M (`exec_atPosition`). -/
theorem positionIsNeverRead : Obligations.PositionIsNeverRead := by
  intro i s t t' m hx hx'
  obtain ⟨m', h⟩ := exec_atPosition hx m
  cases hx'.symm.trans h
  rfl

end

section
/-! What a response's shape depends on (R36): the registers that GET_INFO reports and the parameter of R6. -/

namespace Sys2Proof.Machine

/-- Two responses with the same STATUS, DETAIL, RESULT and length of OUT. -/
def SameShape (r r' : Response) : Prop :=
  r.status = r'.status ∧ r.detail = r'.detail ∧ r.result = r'.result ∧ r.out.length = r'.out.length

theorem SameShape.refl (r : Response) : SameShape r r := ⟨rfl, rfl, rfl, rfl⟩

/-- Successes whose outputs have one length report the same RESULT (R82, assumption 5). -/
theorem sameShape_okResponse {out out' : Bytes} (h : out.length = out'.length) :
    SameShape (okResponse (resultOf out.length) out) (okResponse (resultOf out'.length) out') :=
  ⟨rfl, rfl, congrArg resultOf h, h⟩

section
variable {s s' : State}

/-- The reported registers are LA_VALID and those of the configuration. -/
theorem SameVisible.of_sameConfig {u u' : State} (h : SameVisible s s') (hu : SameConfig s u) (hu' : SameConfig s' u')
    (hv : u'.laValid = u.laValid) : SameVisible u u' := by
  obtain ⟨hst, hdir, -, heng, hpadm, hbs⟩ := h
  exact ⟨by rw [hu.st, hu'.st, hst], by rw [hu.dir, hu'.dir, hdir], hv, by rw [hu.eng, hu'.eng, heng],
    by rw [hu.padm, hu'.padm, hpadm], by rw [hu.bs, hu'.bs, hbs]⟩

theorem SameVisible.respond (h : SameVisible s s') (r r' : Response) : SameVisible (respond r s) (respond r' s') := h

/-- R27: the commands write ST alike in both states. -/
theorem SameVisible.withSt (h : SameVisible s s') (st : Life) :
    SameVisible { s with st := st } { s' with st := st } := ⟨rfl, h.2⟩

theorem SameVisible.laMode_eq (h : SameVisible s s') : s'.laMode = s.laMode := by
  obtain ⟨-, hdir, -, -, hpadm, -⟩ := h
  simp only [State.laMode, hdir, hpadm]

/-- R85: the INFO word is made of the reported registers. -/
theorem SameVisible.infoWord_eq (h : SameVisible s s') : s'.infoWord = s.infoWord := by
  obtain ⟨hst, hdir, hv, heng, hpadm, hbs⟩ := h
  simp only [State.infoWord, hst, hdir, hv, heng, hpadm, hbs]

/-- R203: INIT's checks read ST and the parameter. -/
theorem SameVisible.initCheck_eq (h : SameVisible s s') (hmin : s.rc4MinKeyBytes = s'.rc4MinKeyBytes) (o : InitOps) :
    initCheck o s' = initCheck o s := by
  obtain ⟨hst, -⟩ := h
  simp only [initCheck, hst, hmin]

/-- R205: the checks of XFORM_BLOCK read ST and BS. -/
theorem SameVisible.xformBlockCheck_eq (h : SameVisible s s') (count ocap : Word) (payload : Bytes) :
    xformBlockCheck count ocap payload s' = xformBlockCheck count ocap payload s := by
  obtain ⟨hst, -, -, -, -, hbs⟩ := h
  simp only [xformBlockCheck, hst, hbs]

/-- R206: the checks of XFORM_FINAL read ST. -/
theorem SameVisible.xformFinalCheck_eq (h : SameVisible s s') (count : Word) (payload : Bytes) :
    xformFinalCheck count payload s' = xformFinalCheck count payload s := by
  obtain ⟨hst, -⟩ := h
  simp only [xformFinalCheck, hst]

/-! ### The datapaths -/

/-- R204: a successful INIT writes every reported register. -/
theorem initCommon_sameVisible (dir : Direction) (eng : Engine) (padm : PadMode) (o : InitOps) (s s' : State) :
    SameVisible (initCommon dir eng padm o s) (initCommon dir eng padm o s') := by
  simp [SameVisible]

theorem SameVisible.after_blockTransform (h : SameVisible s s') (D : Bytes) :
    SameVisible (blockTransform D s).2 (blockTransform D s').2 := by
  have hla := h.laMode_eq
  obtain ⟨-, -, hv, -⟩ := id h
  exact h.of_sameConfig (blockTransform_sameConfig D s) (blockTransform_sameConfig D s')
    (by rw [blockTransform_laValid, blockTransform_laValid, hla, hv])

/-- R185, R205: how much XFORM_BLOCK answers depends on LA_MODE, LA_VALID and BS. -/
theorem SameVisible.blockTransform_length_eq (h : SameVisible s s') (D : Bytes) :
    (blockTransform D s).1.length = (blockTransform D s').1.length := by
  have hla := h.laMode_eq
  obtain ⟨-, -, hv, -, -, hbs⟩ := h
  simp only [blockTransform_length, release_length, hla, hv, hbs]

theorem SameVisible.after_finalTransform (h : SameVisible s s') (D : Bytes) :
    SameVisible (finalTransform D s).2 (finalTransform D s').2 := by
  have hla := h.laMode_eq
  obtain ⟨-, -, hv, -⟩ := id h
  exact h.of_sameConfig (finalTransform_sameConfig D s) (finalTransform_sameConfig D s')
    (by rw [finalTransform_laValid, finalTransform_laValid, hla, hv])

/-- R151 to R155: a padded length does not depend on the state. -/
theorem pad_length_congr (mode : PadMode) (P : Bytes) (B : Nat) (s s' : State) :
    (pad mode P B s).1.length = (pad mode P B s').1.length := by
  cases mode with
  | iso10126 => simp [pad, padIso10126_length]
  | noPad | pkcs7 | zeros | ansix923 => rfl

/-- R206: outside lookahead mode XFORM_FINAL succeeds, and how much it answers depends on DIR, PADM and BS. -/
theorem SameVisible.finalTransform_ok (h : SameVisible s s') (hla : s.laMode = false) (D : Bytes) :
    ∃ out out', (finalTransform D s).1 = .ok out ∧ (finalTransform D s').1 = .ok out' ∧
      out.length = out'.length := by
  obtain ⟨-, hdir, -, -, hpadm, hbs⟩ := h
  obtain hd | ⟨hd, hp⟩ | hpadded := dir_padm_cases s
  · rw [finalTransform_encrypt hd, finalTransform_encrypt (hdir.trans hd)]
    refine ⟨_, _, rfl, rfl, ?_⟩
    rw [finalEncrypt_eq, finalEncrypt_eq, xorKs_length, xorKs_length, hpadm, hbs]
    exact pad_length_congr ..
  · rw [finalTransform_decryptNone hd hp, finalTransform_decryptNone (hdir.trans hd) (hpadm.trans hp)]
    exact ⟨_, _, rfl, rfl, by rw [xorKs_length, xorKs_length]⟩
  · rw [(laMode_iff s).mpr hpadded] at hla
    cases hla

/-! ### The answers -/

variable {t t' : State} {r r' : Response}

theorem SameVisible.init_answers {i : Instr} {dir : Direction} {o : InitOps} (h : SameVisible s s')
    (hmin : s.rc4MinKeyBytes = s'.rc4MinKeyBytes) (hx : ∀ u, exec i u = .next (initWith dir o u))
    (ha : Answers i s t r) (ha' : Answers i s' t' r') : SameVisible t t' ∧ SameShape r r' := by
  have hcheck := h.initCheck_eq hmin o
  obtain ⟨e, hc, rfl, rfl⟩ | ⟨eng, padm, hc, rfl, rfl⟩ := ha.init_cases (hx s) <;> rw [hc] at hcheck <;>
    obtain ⟨e', hc', rfl, rfl⟩ | ⟨eng', padm', hc', rfl, rfl⟩ := ha'.init_cases (hx s') <;>
    cases hcheck.symm.trans hc'
  · exact ⟨h.respond _ _, .refl _⟩
  · exact ⟨(initCommon_sameVisible ..).respond _ _, .refl _⟩

theorem SameVisible.xformBlock_answers {count ocap : Word} {payload : Bytes} (h : SameVisible s s')
    (ha : Answers (.xformBlock count ocap payload) s t r) (ha' : Answers (.xformBlock count ocap payload) s' t' r') :
    SameVisible t t' ∧ SameShape r r' := by
  have hcheck := h.xformBlockCheck_eq count ocap payload
  obtain ⟨e, hc, rfl, rfl⟩ | ⟨hc, D, rfl, rfl, rfl⟩ := ha.xformBlock_cases <;> rw [hc] at hcheck <;>
    obtain ⟨e', hc', rfl, rfl⟩ | ⟨hc', D', rfl, rfl, rfl⟩ := ha'.xformBlock_cases <;>
    cases hcheck.symm.trans hc'
  · exact ⟨h.respond _ _, .refl _⟩
  · exact ⟨(h.after_blockTransform _).respond _ _, sameShape_okResponse (h.blockTransform_length_eq _)⟩

end

/-- R206: an accepted XFORM_FINAL ends the transform with a success or ERR_PADDING, of the datapath's value. -/
theorem Answers.xformFinal_accepted {count : Word} {payload : Bytes} {s t : State} {r : Response}
    (h : Answers (.xformFinal count payload) s t r) (hc : xformFinalCheck count payload s = none) :
    (∃ r₀, t = respond r₀ { (finalTransform (payloadRead payload 0 count.toNat) s).2 with st := .done }) ∧
      (r.status = 0 ∨ r.status = 5) ∧
        ∀ out, (finalTransform (payloadRead payload 0 count.toNat) s).1 = .ok out →
          r = okResponse (resultOf out.length) out := by
  obtain ⟨e, hc', -, -⟩ | ⟨-, D, rfl, ⟨d, hd, rfl, rfl⟩ | ⟨out, hd, rfl, rfl⟩⟩ := h.xformFinal_cases
  · cases hc.symm.trans hc'
  · exact ⟨⟨_, rfl⟩, .inr rfl, fun out ho => by cases hd.symm.trans ho⟩
  · exact ⟨⟨_, rfl⟩, .inl rfl, fun out' ho => by cases hd.symm.trans ho; rfl⟩

/-- R36, R243: the XFORM_FINAL of a padded decrypt succeeds or fails by the bytes it decrypts; every other one answers
alike. -/
theorem SameVisible.xformFinal_answers {count : Word} {payload : Bytes} {s s' t t' : State} {r r' : Response}
    (h : SameVisible s s') (ha : Answers (.xformFinal count payload) s t r)
    (ha' : Answers (.xformFinal count payload) s' t' r') :
    SameVisible t t' ∧ (SameShape r r' ∨
      (s.st = .active ∧ s.laMode = true ∧ (r.status = 0 ∨ r.status = 5) ∧ (r'.status = 0 ∨ r'.status = 5))) := by
  have hcheck := h.xformFinalCheck_eq count payload
  cases hc : xformFinalCheck count payload s with
  | some e =>
    obtain ⟨rfl, rfl⟩ := ha.of_respond (exec_xformFinal_refused hc) rfl
    obtain ⟨rfl, rfl⟩ := ha'.of_respond (exec_xformFinal_refused (hcheck.trans hc)) rfl
    exact ⟨h.respond _ _, .inl (.refl _)⟩
  | none =>
    obtain ⟨⟨_, rfl⟩, hstatus, hok⟩ := ha.xformFinal_accepted hc
    obtain ⟨⟨_, rfl⟩, hstatus', hok'⟩ := ha'.xformFinal_accepted (hcheck.trans hc)
    refine ⟨((h.after_finalTransform _).withSt _).respond _ _, ?_⟩
    cases hla : s.laMode with
    | true => exact .inr ⟨xformFinalCheck_none hc, rfl, hstatus, hstatus'⟩
    | false =>
      obtain ⟨out, out', ho, ho', hlen⟩ := h.finalTransform_ok hla (payloadRead payload 0 count.toNat)
      rw [hok out ho, hok' out' ho']
      exact .inl (sameShape_okResponse hlen)

end Sys2Proof.Machine

open Sys2Proof Sys2Proof.Machine

/-- Settles O55, command by command: the checks and the lengths of the outputs read the reported registers and the
parameter alone, and only the XFORM_FINAL of a padded decrypt reads more (`SameVisible.xformFinal_answers`). -/
theorem reportedRegistersFixResponseShapeButPaddedFinal :
    Obligations.ReportedRegistersFixResponseShapeButPaddedFinal := by
  intro i s s' t t' r r' h hmin ha ha'
  cases i with
  | initEnc o => exact (h.init_answers hmin (execInitEnc_eq o) ha ha').imp_right .inl
  | initDec o => exact (h.init_answers hmin (execInitDec_eq o) ha ha').imp_right .inl
  | xformBlock count ocap payload => exact (h.xformBlock_answers ha ha').imp_right .inl
  | xformFinal count payload =>
    refine (h.xformFinal_answers ha ha').imp_right (Or.imp_right ?_)
    rintro ⟨hst, hla, hstatus, hstatus'⟩
    obtain ⟨hdir, hpadm⟩ := (laMode_iff s).mp hla
    exact ⟨⟨count, payload, rfl⟩, hst, hdir, hpadm, hstatus, hstatus'⟩
  | getInfo =>
    obtain ⟨rfl, rfl⟩ := ha.getInfo
    obtain ⟨rfl, rfl⟩ := ha'.getInfo
    exact ⟨h.respond _ _, .inl (h.infoWord_eq ▸ SameShape.refl _)⟩
  | dispose =>
    obtain ⟨rfl, rfl⟩ := ha.dispose
    obtain ⟨rfl, rfl⟩ := ha'.dispose
    exact ⟨⟨rfl, rfl, rfl, rfl, rfl, rfl⟩, .inl (SameShape.refl _)⟩

end

section
/-! Decoding the record of a command gives the command back (R70 to R75). -/

namespace Sys2Proof

/-! ### The fields of an encoded record -/

/-- A field above the low part of a word is a field of the high part. -/
theorem extractLsb'_append_high {v w start len : Nat} {hi : BitVec v} {lo : BitVec w} {x : BitVec len}
    (h : hi.extractLsb' start len = x) : (hi ++ lo).extractLsb' (start + w) len = x := by
  rw [BitVec.extractLsb'_append_eq_of_le (Nat.le_add_left w start), Nat.add_sub_cancel, h]

theorem opc_encodeInit (opc : BitVec 8) (o : InitOps) : (encodeInit opc o).opc = opc :=
  extractLsb'_append_high <| extractLsb'_append_high <| extractLsb'_append_high BitVec.extractLsb'_append_eq_left

/-- R80: the encoder writes `ARG0[15:8]` as zero. -/
theorem initReserved_encodeInit (opc : BitVec 8) (o : InitOps) : (encodeInit opc o).initReserved = 0 :=
  extractLsb'_append_high (start := 0) BitVec.extractLsb'_append_eq_right

/-- R72: ENG, PADM, BSZ and CHM stand in `CMD` in this order, from bit 23 down. -/
theorem initCmd_fields (opc : BitVec 8) (o : InitOps) :
    (encodeInit opc o).cmd.extractLsb' 20 4 = o.eng ∧ (encodeInit opc o).cmd.extractLsb' 16 4 = o.padm ∧
      (encodeInit opc o).cmd.extractLsb' 8 8 = o.bsz ∧ (encodeInit opc o).cmd.extractLsb' 0 8 = o.chm :=
  ⟨extractLsb'_append_high <| extractLsb'_append_high <|
      extractLsb'_append_high (start := 0) BitVec.extractLsb'_append_eq_right,
    extractLsb'_append_high <| extractLsb'_append_high (start := 0) BitVec.extractLsb'_append_eq_right,
    extractLsb'_append_high (start := 0) BitVec.extractLsb'_append_eq_right,
    BitVec.extractLsb'_append_eq_right⟩

/-- R73: KEYLEN and IVLEN stand at the two ends of `ARG0`. -/
theorem initArg0_fields (opc : BitVec 8) (o : InitOps) :
    (encodeInit opc o).arg0.extractLsb' 0 8 = o.keylen ∧ (encodeInit opc o).arg0.extractLsb' 16 16 = o.ivlen :=
  ⟨BitVec.extractLsb'_append_eq_right, extractLsb'_append_high BitVec.extractLsb'_append_eq_left⟩

/-- R72, R73: the INIT layout keeps every operand. -/
theorem initOps_encodeInit (opc : BitVec 8) (o : InitOps) : (encodeInit opc o).initOps = o := by
  obtain ⟨heng, hpadm, hbsz, hchm⟩ := initCmd_fields opc o
  obtain ⟨hkeylen, hivlen⟩ := initArg0_fields opc o
  rw [Command.initOps, heng, hpadm, hbsz, hchm, hkeylen, hivlen, encodeInit]

theorem opc_plainCmd (opc : BitVec 8) (arg0 arg1 : Word) (payload : Bytes) :
    (⟨plainCmd opc, arg0, arg1, payload⟩ : Command).opc = opc :=
  BitVec.extractLsb'_append_eq_left

/-- R80: the encoder writes `CMD[23:0]` as zero. -/
theorem low24_plainCmd (opc : BitVec 8) (arg0 arg1 : Word) (payload : Bytes) :
    (⟨plainCmd opc, arg0, arg1, payload⟩ : Command).low24 = 0 :=
  BitVec.extractLsb'_append_eq_right

/-! ### The decoder on an encoded record -/

/-- R200: an INIT record passes the encoding checks with the operands it was written from. -/
theorem decodeInit_encodeInit (mk : InitOps → Instr) (opc : BitVec 8) (o : InitOps) :
    decodeInit mk (encodeInit opc o) = .ok (mk o) := by
  simp [decodeInit, initReserved_encodeInit, initOps_encodeInit]

/-- R200: a record with `CMD[23:0]` zero passes the encoding checks. -/
theorem decodePlain_plainCmd (i : Instr) (opc : BitVec 8) (arg0 arg1 : Word) (payload : Bytes) :
    decodePlain i ⟨plainCmd opc, arg0, arg1, payload⟩ = .ok i := by simp [decodePlain, low24_plainCmd]

/-- R70 to R75: the opcode map sends each command's record to its own operand layout. -/
theorem decode_encode (i : Instr) : decode (encode i) = .ok i := by
  cases i with
  | initEnc o | initDec o => simp [decode, encode, opc_encodeInit, decodeInit_encodeInit]
  | xformBlock count ocap payload | xformFinal count payload | getInfo | dispose =>
    simp [decode, encode, opc_plainCmd, decodePlain_plainCmd]

end Sys2Proof
end

section
/-! A command neither reads nor writes what waits behind it (R58, R240): every operation commutes with a change of the
inbox. -/

namespace Sys2Proof.Machine

/-- The state `s` with the requests `q` waiting (assumption 1). -/
def State.awaiting (s : State) (q : List Request) : State := { s with inbox := q }

section
variable (s : State) (q : List Request)

/-! ### The shared operations -/

theorem awaiting_inbox : (s.awaiting q).inbox = q := rfl

/-- R181: the keystream and the engines do not depend on what waits. -/
theorem ks_awaiting (n : Nat) : ks n (s.awaiting q) = ((ks n s).1, (ks n s).2.awaiting q) := by
  unfold ks
  cases h : s.eng <;> simp only [State.awaiting, h]

/-- R182. -/
theorem xorKs_awaiting (D : Bytes) : xorKs D (s.awaiting q) = ((xorKs D s).1, (xorKs D s).2.awaiting q) := by
  simp only [xorKs, ks_awaiting]
  rfl

/-- R185. -/
theorem release_awaiting : release (s.awaiting q) = ((release s).1, (release s).2.awaiting q) := by
  obtain ⟨hv, h⟩ | ⟨hv, h⟩ := release_cases s <;> rw [h]
  · rw [release, if_pos (show (s.awaiting q).laValid = true from hv)]
    exact congrArg (fun r : Bytes × State => (r.1, clearLookahead r.2)) (xorKs_awaiting s q s.heldBlock)
  · rw [release, if_neg (by simp [State.awaiting, hv])]

/-! ### The commands' datapaths -/

/-- R203, R204: INIT's checks and its configuration do not read the inbox. -/
theorem initWith_awaiting (dir : Direction) (o : InitOps) :
    initWith dir o (s.awaiting q) = (initWith dir o s).awaiting q := by
  have hcheck : initCheck o (s.awaiting q) = initCheck o s := rfl
  obtain ⟨e, hc, h⟩ | ⟨eng, padm, hc, h⟩ := initWith_cases dir o s <;> rw [h, initWith, hcheck, hc]
  · rfl
  · cases eng <;> rfl

/-- R205. -/
theorem blockTransform_awaiting (D : Bytes) :
    blockTransform D (s.awaiting q) = ((blockTransform D s).1, (blockTransform D s).2.awaiting q) := by
  cases h : s.laMode
  · rw [blockTransform_passThrough h, blockTransform_passThrough (s := s.awaiting q) h, xorKs_awaiting]
  · rw [blockTransform_lookahead h, blockTransform_lookahead (s := s.awaiting q) h, release_awaiting, xorKs_awaiting]
    rfl

/-- R206. -/
theorem finalTransform_awaiting (D : Bytes) :
    finalTransform D (s.awaiting q) = ((finalTransform D s).1, (finalTransform D s).2.awaiting q) := by
  obtain h | ⟨h, hp⟩ | ⟨h, hp⟩ := dir_padm_cases s
  · have hpad : pad s.padm D s.bs.toNat (s.awaiting q) =
        ((pad s.padm D s.bs.toNat s).1, (pad s.padm D s.bs.toNat s).2.awaiting q) := by cases s.padm <;> rfl
    have henc : finalEncrypt D (s.awaiting q) = ((finalEncrypt D s).1, (finalEncrypt D s).2.awaiting q) :=
      (congrArg (fun r : Bytes × State => xorKs r.1 r.2) hpad).trans (xorKs_awaiting ..)
    rw [finalTransform_encrypt h, finalTransform_encrypt (s := s.awaiting q) h, henc]
  · rw [finalTransform_decryptNone h hp, finalTransform_decryptNone (s := s.awaiting q) h hp, xorKs_awaiting]
  · rw [finalTransform_decryptPadded h hp, finalTransform_decryptPadded (s := s.awaiting q) h hp, finalTail, finalTail,
      release_awaiting, xorKs_awaiting]
    rfl

end

/-! ### Every command -/

/-- R58: with other requests waiting a command gives the same next state, responses included, with those requests still
waiting. -/
theorem exec_awaiting {i : Instr} {s t : State} (hx : exec i s = .next t) (q : List Request) :
    exec i (s.awaiting q) = .next (t.awaiting q) := by
  cases i with
  | initEnc o =>
    cases (execInitEnc_eq o s).symm.trans hx
    exact congrArg _ (initWith_awaiting s q .encrypt o)
  | initDec o =>
    cases (execInitDec_eq o s).symm.trans hx
    exact congrArg _ (initWith_awaiting s q .decrypt o)
  | xformBlock count ocap payload =>
    obtain ⟨e, hc, hs⟩ | ⟨hc, hs⟩ := execXformBlock_cases count ocap payload s <;> cases hs.symm.trans hx
    · exact exec_xformBlock_refused (s := s.awaiting q) hc
    · rw [exec_xformBlock_accepted (s := s.awaiting q) hc, blockTransform_awaiting]
      rfl
  | xformFinal count payload =>
    have hdata := finalTransform_awaiting s q (payloadRead payload 0 count.toNat)
    obtain ⟨e, hc, hs⟩ | ⟨hc, ⟨d, hd, hs⟩ | ⟨out, hd, hs⟩⟩ := execXformFinal_cases count payload s <;>
      cases hs.symm.trans hx
    · exact exec_xformFinal_refused (s := s.awaiting q) hc
    · exact exec_xformFinal_padError (s := s.awaiting q) hc (hd ▸ hdata)
    · exact exec_xformFinal_accepted (s := s.awaiting q) hc (hd ▸ hdata)
  | getInfo =>
    cases (execGetInfo_eq s).symm.trans hx
    rfl
  | dispose =>
    cases (execDispose_eq s).symm.trans hx
    rfl

/-! ### Runs -/

theorem execAll_cons_of_next {i : Instr} {s t : State} (h : exec i s = .next t) (is : List Instr) :
    execAll (i :: is) s = execAll is t := by rw [execAll, h]

theorem run_succ_of_step {s t : State} (h : step s = .next t) (k : Nat) :
    Host.Core.run Sys2Proof.core (k + 1) s = Host.Core.run Sys2Proof.core k t := by
  have hcore : Sys2Proof.core.step s = .next t := h
  simp only [Host.Core.run, hcore]

/-- R200: the step on a state where an encoded command waits first performs that command. -/
theorem step_awaiting_encode (i : Instr) (s : State) (rest : List Request) :
    step (s.awaiting (.command (encode i) :: rest)) = exec i (s.awaiting rest) :=
  stepRunsDecodedCommand _ (encode i) rest i (awaiting_inbox ..) (decode_encode i)

/-- R58: the induction over the commands waiting. Each step takes one, and what it answers does not depend on those
behind it (`exec_awaiting`). -/
theorem run_awaiting_encoded (is : List Instr) (s : State) :
    Host.Core.run Sys2Proof.core is.length (s.awaiting (is.map fun i => .command (encode i))) =
      execAll is (s.awaiting []) := by
  induction is generalizing s with
  | nil => rfl
  | cons i is ih =>
    obtain ⟨t, -, hx, -⟩ := exec_answers i s
    have hrun : Host.Core.run Sys2Proof.core (is.length + 1)
          (s.awaiting (.command (encode i) :: is.map fun i => .command (encode i))) =
        Host.Core.run Sys2Proof.core is.length (t.awaiting (is.map fun i => .command (encode i))) :=
      run_succ_of_step ((step_awaiting_encode i s _).trans (exec_awaiting hx _)) _
    have hall : execAll (i :: is) (s.awaiting []) = execAll is (t.awaiting []) :=
      execAll_cons_of_next (exec_awaiting hx []) is
    exact hrun.trans ((ih t).trans hall.symm)

end Sys2Proof.Machine

open Sys2Proof Sys2Proof.Machine

/-- Settles O11, by induction on the commands waiting (`run_awaiting_encoded`). -/
theorem runPerformsCommandsInOrder : Obligations.RunPerformsCommandsInOrder := run_awaiting_encoded

end

section
/-! The decoder: one equation per opcode (R71), what it accepts and refuses (R80, R81, R200), and encoding what it
accepts (R70 to R75). -/

namespace Sys2Proof

/-! ### The fields of a record as numbers -/

theorem opc_toNat (c : Command) : c.opc.toNat = c.cmd.toNat / 2 ^ 24 := by
  have := c.cmd.isLt
  rw [Command.opc, BitVec.extractLsb'_toNat, Nat.shiftRight_eq_div_pow]
  omega

/-- R71: OPC has a value exactly when `CMD` divided by 2^24 has it. -/
theorem opc_eq_iff (c : Command) (k : BitVec 8) : c.opc = k ↔ c.cmd.toNat / 2 ^ 24 = k.toNat := by
  rw [← opc_toNat, BitVec.toNat_inj]

theorem low24_ne_zero_iff (c : Command) : c.low24 ≠ 0 ↔ c.cmd.toNat % 2 ^ 24 ≠ 0 := by
  rw [Ne, ← BitVec.toNat_inj, Command.low24, BitVec.extractLsb'_toNat]
  rfl

theorem initReserved_ne_zero_iff (c : Command) : c.initReserved ≠ 0 ↔ c.arg0.toNat / 2 ^ 8 % 2 ^ 8 ≠ 0 := by
  rw [Ne, ← BitVec.toNat_inj, Command.initReserved, BitVec.extractLsb'_toNat, Nat.shiftRight_eq_div_pow]
  rfl

/-- R72, R73: the operands of an INIT record by the numbers of its words. -/
theorem initOps_toNat (c : Command) :
    c.initOps.eng.toNat = c.cmd.toNat / 2 ^ 20 % 2 ^ 4 ∧ c.initOps.padm.toNat = c.cmd.toNat / 2 ^ 16 % 2 ^ 4 ∧
      c.initOps.bsz.toNat = c.cmd.toNat / 2 ^ 8 % 2 ^ 8 ∧ c.initOps.chm.toNat = c.cmd.toNat % 2 ^ 8 ∧
      c.initOps.keylen.toNat = c.arg0.toNat % 2 ^ 8 ∧ c.initOps.ivlen.toNat = c.arg0.toNat / 2 ^ 16 ∧
      c.initOps.payload = c.payload := by
  have := c.arg0.isLt
  simp only [Command.initOps, BitVec.extractLsb'_toNat, Nat.shiftRight_eq_div_pow, Nat.pow_zero, Nat.div_one, true_and,
    and_true]
  omega

/-! ### The decoder by opcode -/

section
variable {c : Command}

theorem decode_opc_initEnc (h : c.opc = 0x01#8) : decode c = decodeInit .initEnc c := by simp [decode, h]
theorem decode_opc_initDec (h : c.opc = 0x02#8) : decode c = decodeInit .initDec c := by simp [decode, h]
theorem decode_opc_xformBlock (h : c.opc = 0x10#8) :
    decode c = decodePlain (.xformBlock c.arg0 c.arg1 c.payload) c := by simp [decode, h]
theorem decode_opc_xformFinal (h : c.opc = 0x11#8) : decode c = decodePlain (.xformFinal c.arg0 c.payload) c := by
  simp [decode, h]
theorem decode_opc_getInfo (h : c.opc = 0x20#8) : decode c = decodePlain .getInfo c := by simp [decode, h]
theorem decode_opc_dispose (h : c.opc = 0x30#8) : decode c = decodePlain .dispose c := by simp [decode, h]

theorem decode_opc_other (h : c.opc ∉ [0x01#8, 0x02#8, 0x10#8, 0x11#8, 0x20#8, 0x30#8]) :
    decode c = .error .opcode := by
  simp only [List.mem_cons, List.not_mem_nil, or_false, not_or] at h
  obtain ⟨h1, h2, h3, h4, h5, h6⟩ := h
  rw [decode, if_neg h1, if_neg h2, if_neg h3, if_neg h4, if_neg h5, if_neg h6]

end

/-- R71's table as numbers: OPC is one of its opcodes when `CMD` divided by 2^24 is. -/
theorem opc_mem_iff (c : Command) (ks : List (BitVec 8)) : c.opc ∈ ks ↔ c.cmd.toNat / 2 ^ 24 ∈ ks.map BitVec.toNat := by
  rw [← opc_toNat, List.mem_map_of_injective fun _ _ => BitVec.eq_of_toNat_eq]

/-- R71, R200: a record is an INIT, a command without an INIT's operands, or none. -/
theorem decode_cases (c : Command) :
    (∃ mk, c.cmd.toNat / 2 ^ 24 ∈ [0x01, 0x02] ∧ decode c = decodeInit mk c) ∨
      (∃ i, c.cmd.toNat / 2 ^ 24 ∈ [0x10, 0x11, 0x20, 0x30] ∧ decode c = decodePlain i c) ∨
      (c.cmd.toNat / 2 ^ 24 ∉ [0x01, 0x02, 0x10, 0x11, 0x20, 0x30] ∧ decode c = .error .opcode) := by
  by_cases h : c.opc ∈ [0x01#8, 0x02#8, 0x10#8, 0x11#8, 0x20#8, 0x30#8]
  · have hnum := opc_toNat c
    simp only [List.mem_cons, List.not_mem_nil, or_false] at h
    obtain h | h | h | h | h | h := h <;> rw [h] at hnum
    · exact .inl ⟨_, by rw [← hnum]; decide, decode_opc_initEnc h⟩
    · exact .inl ⟨_, by rw [← hnum]; decide, decode_opc_initDec h⟩
    · exact .inr (.inl ⟨_, by rw [← hnum]; decide, decode_opc_xformBlock h⟩)
    · exact .inr (.inl ⟨_, by rw [← hnum]; decide, decode_opc_xformFinal h⟩)
    · exact .inr (.inl ⟨_, by rw [← hnum]; decide, decode_opc_getInfo h⟩)
    · exact .inr (.inl ⟨_, by rw [← hnum]; decide, decode_opc_dispose h⟩)
  · exact .inr (.inr ⟨(opc_mem_iff c _).not.mp h, decode_opc_other h⟩)

/-! ### The two outcomes of the reserved checks -/

theorem decodeInit_eq_ok_iff {mk : InitOps → Instr} {c : Command} {i : Instr} :
    decodeInit mk c = .ok i ↔ c.initReserved = 0 ∧ mk c.initOps = i := by
  by_cases h : c.initReserved = 0#8 <;> simp [decodeInit, h]

theorem decodePlain_eq_ok_iff {i j : Instr} {c : Command} : decodePlain i c = .ok j ↔ c.low24 = 0 ∧ i = j := by
  by_cases h : c.low24 = 0#24 <;> simp [decodePlain, h]

theorem decodeInit_eq_error_iff {mk : InitOps → Instr} {c : Command} {e : DecodeError} :
    decodeInit mk c = .error e ↔ c.arg0.toNat / 2 ^ 8 % 2 ^ 8 ≠ 0 ∧ .reserved = e := by
  rw [← initReserved_ne_zero_iff]
  by_cases h : c.initReserved = 0#8 <;> simp [decodeInit, h]

theorem decodePlain_eq_error_iff {i : Instr} {c : Command} {e : DecodeError} :
    decodePlain i c = .error e ↔ c.cmd.toNat % 2 ^ 24 ≠ 0 ∧ .reserved = e := by
  rw [← low24_ne_zero_iff]
  by_cases h : c.low24 = 0#24 <;> simp [decodePlain, h]

/-- R71 to R75, R80: everything the decoder accepts. -/
theorem decode_ok_cases {c : Command} {i : Instr} (h : decode c = .ok i) :
    (c.opc = 0x01#8 ∧ c.initReserved = 0 ∧ i = .initEnc c.initOps) ∨
      (c.opc = 0x02#8 ∧ c.initReserved = 0 ∧ i = .initDec c.initOps) ∨
      (c.opc = 0x10#8 ∧ c.low24 = 0 ∧ i = .xformBlock c.arg0 c.arg1 c.payload) ∨
      (c.opc = 0x11#8 ∧ c.low24 = 0 ∧ i = .xformFinal c.arg0 c.payload) ∨
      (c.opc = 0x20#8 ∧ c.low24 = 0 ∧ i = .getInfo) ∨ (c.opc = 0x30#8 ∧ c.low24 = 0 ∧ i = .dispose) := by
  by_cases hopc : c.opc ∈ [0x01#8, 0x02#8, 0x10#8, 0x11#8, 0x20#8, 0x30#8]
  · simp only [List.mem_cons, List.not_mem_nil, or_false] at hopc
    obtain hopc | hopc | hopc | hopc | hopc | hopc := hopc
    · simpa [hopc, and_comm, eq_comm] using decodeInit_eq_ok_iff.mp ((decode_opc_initEnc hopc).symm.trans h)
    · simpa [hopc, and_comm, eq_comm] using decodeInit_eq_ok_iff.mp ((decode_opc_initDec hopc).symm.trans h)
    · simpa [hopc, and_comm, eq_comm] using decodePlain_eq_ok_iff.mp ((decode_opc_xformBlock hopc).symm.trans h)
    · simpa [hopc, and_comm, eq_comm] using decodePlain_eq_ok_iff.mp ((decode_opc_xformFinal hopc).symm.trans h)
    · simpa [hopc, and_comm, eq_comm] using decodePlain_eq_ok_iff.mp ((decode_opc_getInfo hopc).symm.trans h)
    · simpa [hopc, and_comm, eq_comm] using decodePlain_eq_ok_iff.mp ((decode_opc_dispose hopc).symm.trans h)
  · cases (decode_opc_other hopc).symm.trans h

/-! ### Encoding what the decoder accepts -/

/-- R72: the five fields of an INIT's `CMD` are the whole word. -/
theorem encodeInit_cmd {c : Command} {k : BitVec 8} (h : c.opc = k) : (encodeInit k c.initOps).cmd = c.cmd := by
  subst h
  simp only [encodeInit, Command.opc, Command.initOps]
  rw [BitVec.extractLsb'_append_extractLsb'_eq_extractLsb' (by rfl),
    BitVec.extractLsb'_append_extractLsb'_eq_extractLsb' (by rfl),
    BitVec.extractLsb'_append_extractLsb'_eq_extractLsb' (by rfl),
    BitVec.extractLsb'_append_extractLsb'_eq_extractLsb' (by rfl),
    BitVec.extractLsb'_eq_self]

/-- R73: KEYLEN, IVLEN and a reserved field of zero are the whole of an INIT's `ARG0`. -/
theorem encodeInit_arg0 {c : Command} (h : c.initReserved = 0) (k : BitVec 8) :
    (encodeInit k c.initOps).arg0 = c.arg0 := by
  rw [encodeInit, ← h]
  simp only [Command.initReserved, Command.initOps]
  rw [BitVec.extractLsb'_append_extractLsb'_eq_extractLsb' (by rfl),
    BitVec.extractLsb'_append_extractLsb'_eq_extractLsb' (by rfl),
    BitVec.extractLsb'_eq_self]

/-- R74, R75: the opcode over 24 zero bits is the whole of another command's `CMD`. -/
theorem plainCmd_eq_cmd {c : Command} {k : BitVec 8} (h : c.opc = k) (hlow : c.low24 = 0) : plainCmd k = c.cmd := by
  rw [plainCmd, ← h, ← hlow, Command.opc, Command.low24,
    BitVec.extractLsb'_append_extractLsb'_eq_extractLsb' (by rfl),
    BitVec.extractLsb'_eq_self]

end Sys2Proof

open Sys2Proof Sys2Proof.Machine

/-- Settles O1: `decode_encode`, command by command. -/
theorem decodeOfEncode : Obligations.DecodeOfEncode := decode_encode

/-- Settles O2: for each command the decoder accepts, the fields it reads and the reserved fields it has found zero are
the whole of the words. -/
theorem encodeOfDecode : Obligations.EncodeOfDecode := by
  intro c i h
  obtain ⟨hopc, hres, rfl⟩ | ⟨hopc, hres, rfl⟩ | ⟨hopc, hlow, rfl⟩ | ⟨hopc, hlow, rfl⟩ | ⟨hopc, hlow, rfl⟩ |
    ⟨hopc, hlow, rfl⟩ := decode_ok_cases h
  · exact ⟨encodeInit_cmd hopc, encodeInit_arg0 hres _, rfl⟩
  · exact ⟨encodeInit_cmd hopc, encodeInit_arg0 hres _, rfl⟩
  · have hcmd := plainCmd_eq_cmd hopc hlow
    exact ⟨hcmd, congrArg (Command.mk · c.arg0 c.arg1 c.payload) hcmd⟩
  · exact ⟨plainCmd_eq_cmd hopc hlow, rfl, rfl⟩
  · exact ⟨plainCmd_eq_cmd hopc hlow, trivial⟩
  · exact ⟨plainCmd_eq_cmd hopc hlow, trivial⟩

/-- Settles O3: the three kinds of record (`decode_cases`) exclude each other by their opcodes, and each kind has
one way to be refused. -/
theorem decodeRefusesExactly : Obligations.DecodeRefusesExactly := by
  intro c
  obtain ⟨mk, hmem, h⟩ | ⟨i, hmem, h⟩ | ⟨hmem, h⟩ := decode_cases c
  · rw [h, decodeInit_eq_error_iff, decodeInit_eq_error_iff]
    generalize c.cmd.toNat / 2 ^ 24 = n at hmem
    simp only [List.mem_cons, List.not_mem_nil, or_false] at hmem
    obtain rfl | rfl := hmem <;> simp
  · rw [h, decodePlain_eq_error_iff, decodePlain_eq_error_iff]
    generalize c.cmd.toNat / 2 ^ 24 = n at hmem
    simp only [List.mem_cons, List.not_mem_nil, or_false] at hmem
    obtain rfl | rfl | rfl | rfl := hmem <;> simp
  · rw [h]
    refine ⟨iff_of_true rfl hmem, iff_of_false (fun he => by cases he) ?_⟩
    simp only [List.mem_cons, List.not_mem_nil, or_false] at hmem ⊢
    omega

/-- Settles O4: a decoded INIT has the operands of `initOps_toNat`, and a decoded transform command whole words. -/
theorem decodedOperandFields : Obligations.DecodedOperandFields := by
  intro c i h
  obtain ⟨-, -, rfl⟩ | ⟨-, -, rfl⟩ | ⟨-, -, rfl⟩ | ⟨-, -, rfl⟩ | ⟨-, -, rfl⟩ | ⟨-, -, rfl⟩ := decode_ok_cases h
  · exact initOps_toNat c
  · exact initOps_toNat c
  · exact ⟨rfl, rfl, rfl⟩
  · exact ⟨rfl, rfl⟩
  · trivial
  · trivial

/-- Settles O5: for each opcode, the decoder's equation does not mention the words replaced. -/
theorem unusedWordsIgnored : Obligations.UnusedWordsIgnored := by
  intro c arg0 arg1 payload
  have opc_of {k : BitVec 8} (h : c.cmd.toNat / 2 ^ 24 = k.toNat) : c.opc = k := (opc_eq_iff c k).mpr h
  simp only [List.mem_cons, List.not_mem_nil, or_false]
  constructor
  · rintro (h | h | h)
    · exact (decode_opc_initEnc (c := { c with arg1 := arg1 }) (opc_of h)).trans (decode_opc_initEnc (opc_of h)).symm
    · exact (decode_opc_initDec (c := { c with arg1 := arg1 }) (opc_of h)).trans (decode_opc_initDec (opc_of h)).symm
    · exact (decode_opc_xformFinal (c := { c with arg1 := arg1 }) (opc_of h)).trans
        (decode_opc_xformFinal (opc_of h)).symm
  · rintro (h | h)
    · exact (decode_opc_getInfo (c := ⟨c.cmd, arg0, arg1, payload⟩) (opc_of h)).trans
        (decode_opc_getInfo (opc_of h)).symm
    · exact (decode_opc_dispose (c := ⟨c.cmd, arg0, arg1, payload⟩) (opc_of h)).trans
        (decode_opc_dispose (opc_of h)).symm

/-- Settles O6: the decoder evaluated on each record. -/
theorem encodingExamples : Obligations.EncodingExamples := by
  unfold Obligations.EncodingExamples
  decide

end

section
/-! The response records (R82 to R84, R236), and the commands that use an undefined operand value (R76 to R79). -/

namespace Sys2Proof.Machine

/-! ### The errors a command can raise -/

/-- R84: the (STATUS, DETAIL) pairs of the errors that a record which decodes can still meet. -/
def commandErrorCodes : List (Byte × Byte) :=
  [(2, 1), (2, 2), (2, 3), (3, 1), (3, 2), (3, 3), (3, 4), (3, 5), (3, 6), (3, 7), (3, 8), (4, 1), (4, 2), (4, 3),
    (5, 1), (5, 2), (5, 3), (5, 4)]

/-- R83, R84: only the two encoding errors have STATUS 1; the other eighteen are listed. -/
theorem err_code_mem {e : Err} (h : e.status ≠ 1) : (e.status, e.detail) ∈ commandErrorCodes := by
  cases e with
  | opcode | reserved => exact absurd rfl h
  | pad d => cases d <;> decide
  | _ => decide

/-- R83: no error has STATUS 0. -/
theorem err_status_ne_zero (e : Err) : e.status ≠ 0 := by
  cases e with
  | pad d => exact (by decide : (0x05 : Byte) ≠ 0)
  | _ => decide

/-- R236: an error that is not of the encoding answers with one of the listed records. -/
theorem errResponse_listed {e : Err} (h : e.status ≠ 1) :
    (errResponse e).result = 0 ∧ (errResponse e).out = [] ∧
      ((errResponse e).status, (errResponse e).detail) ∈ commandErrorCodes :=
  ⟨rfl, rfl, err_code_mem h⟩

theorem initCheck_error_status_ne_one {o : InitOps} {s : State} {e : Err} (h : initCheck o s = .error e) :
    e.status ≠ 1 := by
  obtain ⟨-, rfl⟩ | ⟨-, he⟩ := initCheck_error h
  · decide
  · rw [he]; decide

theorem xformBlockCheck_status_ne_one {count ocap : Word} {payload : Bytes} {s : State} {e : Err}
    (h : xformBlockCheck count ocap payload s = some e) : e.status ≠ 1 := by
  obtain ⟨-, rfl⟩ | ⟨-, rfl⟩ | ⟨-, he⟩ := xformBlockCheck_error h
  · decide
  · decide
  · rw [he]; decide

theorem xformFinalCheck_status_ne_one {count : Word} {payload : Bytes} {s : State} {e : Err}
    (h : xformFinalCheck count payload s = some e) : e.status ≠ 1 := by
  obtain ⟨-, rfl⟩ | ⟨-, rfl⟩ | ⟨-, he⟩ := xformFinalCheck_error h
  · decide
  · decide
  · rw [he]; decide

/-- R82: RESULT is |OUT| where that fits in 32 bits (assumption 5). -/
theorem resultOf_toNat {n : Nat} (h : n < 2 ^ 32) : (resultOf n).toNat = n := by
  rw [resultOf, if_pos h, BitVec.toNat_ofNat, Nat.mod_eq_of_lt h]

/-- R203, R204: the two records an INIT answers with. -/
theorem init_response_listed {i : Instr} {dir : Direction} {o : InitOps} {s t : State} {r : Response}
    (hx : exec i s = .next (initWith dir o s)) (h : Answers i s t r) :
    (r.status = 0 ∧ r.detail = 0 ∧ r.result = 0 ∧ r.out = []) ∨
      (r.result = 0 ∧ r.out = [] ∧ (r.status, r.detail) ∈ commandErrorCodes) := by
  obtain ⟨e, hc, -, rfl⟩ | ⟨eng, padm, -, -, rfl⟩ := h.init_cases hx
  · exact .inr (errResponse_listed (initCheck_error_status_ne_one hc))
  · exact .inl ⟨rfl, rfl, rfl, rfl⟩

/-! ### Commands with an undefined operand value -/

theorem engine_ofField_eq_some {f : BitVec 4} {eng : Engine} (h : Engine.ofField f = some eng) : f.toNat ≤ 1 := by
  unfold Engine.ofField at h
  split at h
  · omega
  · omega
  · cases h

theorem padMode_ofField_eq_some {f : BitVec 4} {padm : PadMode} (h : PadMode.ofField f = some padm) :
    f.toNat ≤ 4 := by
  unfold PadMode.ofField at h
  split at h
  · omega
  · omega
  · omega
  · omega
  · omega
  · cases h

/-- R203: an INIT that passes its checks uses defined values, and its payload covers key and IV. -/
theorem wellFormed_of_initCheck {o : InitOps} {s : State} {c : Engine × PadMode} (h : initCheck o s = .ok c) :
    o.wellFormed = true := by
  unfold initCheck at h
  split at h
  · cases h
  split at h
  · cases h
  next eng heng =>
    split_ifs at h with _ hpayload _ _ _ hchm
    split at h
    · cases h
    next padm hpadm =>
      have hmode : o.chm = 0 := not_not.mp hchm
      simp [InitOps.wellFormed, InitOps.engineDefined, InitOps.paddingDefined, InitOps.modeDefined,
        InitOps.payloadCovers, engine_ofField_eq_some heng, padMode_ofField_eq_some hpadm, hmode, not_lt.mp hpayload]

/-- R206: an XFORM_FINAL that passes its checks has COUNT bytes of payload. -/
theorem countCovered_of_xformFinalCheck {count : Word} {payload : Bytes} {s : State}
    (h : xformFinalCheck count payload s = none) : countCovered count payload = true := by
  have hlen := length_payloadRead_of_xformFinalCheck h
  rw [payloadRead, List.drop_zero, List.length_take] at hlen
  exact decide_eq_true (by omega)

/-- What an error other than ERR_PADDING answers and leaves (R236, R237). -/
theorem raiseErr_rejects (e : Err) (s : State) :
    (errResponse e).status ≠ 0 ∧ (errResponse e).out = [] ∧ SameRegisters s (raiseErr e s) :=
  ⟨err_status_ne_zero e, rfl, rfl, rfl, rfl, rfl, rfl, rfl, rfl, rfl, rfl, rfl⟩

/-- R76, R77, R79: an ill-formed INIT does not pass InitCheck. -/
theorem illFormed_init_rejected {i : Instr} {dir : Direction} {o : InitOps} {s t : State} {r : Response}
    (hx : exec i s = .next (initWith dir o s)) (hw : o.wellFormed = false) (h : Answers i s t r) :
    r.status ≠ 0 ∧ r.out = [] ∧ SameRegisters s t := by
  obtain ⟨e, -, rfl, rfl⟩ | ⟨eng, padm, hc, -, -⟩ := h.init_cases hx
  · exact raiseErr_rejects e s
  · exact absurd (wellFormed_of_initCheck hc) (by simp [hw])

end Sys2Proof.Machine

open Sys2Proof Sys2Proof.Machine

/-- Settles O12, command by command: a command succeeds with its own RESULT, or its checks name an error whose STATUS is
not 1, and those are the eighteen listed (`err_code_mem`). -/
theorem responseRecordsListed : Obligations.ResponseRecordsListed := by
  intro i s t r h
  cases i with
  | initEnc o => exact init_response_listed (execInitEnc_eq o s) h
  | initDec o => exact init_response_listed (execInitDec_eq o s) h
  | xformBlock count ocap payload =>
    obtain ⟨e, hc, -, rfl⟩ | ⟨-, D, -, -, rfl⟩ := h.xformBlock_cases
    · exact .inr (errResponse_listed (xformBlockCheck_status_ne_one hc))
    · exact .inl ⟨rfl, rfl, resultOf_toNat⟩
  | xformFinal count payload =>
    obtain ⟨e, hc, -, rfl⟩ | ⟨-, D, -, ⟨d, -, -, rfl⟩ | ⟨out, -, -, rfl⟩⟩ := h.xformFinal_cases
    · exact .inr (errResponse_listed (xformFinalCheck_status_ne_one hc))
    · exact .inr (errResponse_listed (by decide : (0x05 : Byte) ≠ 1))
    · exact .inl ⟨rfl, rfl, resultOf_toNat⟩
  | getInfo =>
    obtain ⟨-, rfl⟩ := h.getInfo
    exact .inl ⟨rfl, rfl, rfl, rfl⟩
  | dispose =>
    obtain ⟨-, rfl⟩ := h.dispose
    exact .inl ⟨rfl, rfl, rfl, rfl⟩

/-- Settles O20, command by command: a command that passes its checks is well-formed, and a command that does not is
rejected (`raiseErr_rejects`). -/
theorem illFormedCommandIsRejected : Obligations.IllFormedCommandIsRejected := by
  intro i s t r hw h
  cases i with
  | initEnc o => exact illFormed_init_rejected (execInitEnc_eq o s) hw h
  | initDec o => exact illFormed_init_rejected (execInitDec_eq o s) hw h
  | xformBlock count ocap payload =>
    obtain ⟨e, -, rfl, rfl⟩ | ⟨hc, -⟩ := h.xformBlock_cases
    · exact raiseErr_rejects e s
    · obtain ⟨-, -, -, hle⟩ := xformBlockCheck_none hc
      exact absurd hw (by simp [Instr.wellFormed, countCovered, hle])
  | xformFinal count payload =>
    obtain ⟨e, -, rfl, rfl⟩ | ⟨hc, -⟩ := h.xformFinal_cases
    · exact raiseErr_rejects e s
    · exact absurd hw (by simp [Instr.wellFormed, countCovered_of_xformFinalCheck hc])
  | getInfo => cases hw
  | dispose => cases hw

end

section
/-! `Pad` and `Unpad` on whole blocks before the tail, and unpadding a padded text (R150 to R163, R166). -/

namespace Sys2Proof.Machine

/-! ### Padding behind whole blocks -/

/-- R150: whole blocks before the tail do not change the pad count. -/
theorem padCount_add {B m : Nat} (hm : B ∣ m) (n : Nat) : padCount B (m + n) = padCount B n := by
  rw [padCount, padCount, Nat.add_mod, Nat.mod_eq_zero_of_dvd hm, Nat.zero_add, Nat.mod_mod]

/-- R151 to R155: padding a text whose first part is whole blocks pads the rest. -/
theorem pad_append {X : Bytes} {B : Nat} (hX : B ∣ X.length) (mode : PadMode) (P : Bytes) (s : State) :
    (pad mode (X ++ P) B s).1 = X ++ (pad mode P B s).1 := by
  have hcount := padCount_add hX P.length
  have hmod : (X.length + P.length) % B = P.length % B := by
    rw [Nat.add_mod, Nat.mod_eq_zero_of_dvd hX, Nat.zero_add, Nat.mod_mod]
  cases mode with
  | noPad => rfl
  | pkcs7 => simp [pad, padPkcs7, hcount]
  | zeros =>
    simp only [pad, padZeros, List.length_append, hmod]
    split_ifs <;> simp
  | ansix923 => simp [pad, padAnsix923, hcount]
  | iso10126 => simp [pad, padIso10126, hcount]

/-! ### Unpadding behind whole blocks -/

theorem dropTail_append {V : Bytes} {n : Nat} (X : Bytes) (h : n ≤ V.length) :
    dropTail (X ++ V) n = X ++ dropTail V n := by
  rw [dropTail, List.length_append, Nat.add_sub_assoc h, List.take_length_add_append, dropTail]

theorem lastBytes_append {V : Bytes} {n : Nat} (X : Bytes) (h : n ≤ V.length) :
    lastBytes (X ++ V) n = lastBytes V n := by
  rw [lastBytes, List.length_append, Nat.add_sub_assoc h, List.drop_length_add_append, lastBytes]

theorem padByte_append {V : Bytes} (X : Bytes) (h : V ≠ []) : padByte (X ++ V) = padByte V := by
  simp [padByte, List.getLastD_eq_getLast?, List.getLast?_append, List.getLast?_eq_some_getLast h]

/-- R157: the length check reads the length mod B, and whether there is a byte. -/
theorem unpadLength_append {X V : Bytes} {B : Nat} (hX : B ∣ X.length) (hV : V ≠ []) (needsByte : Bool) :
    unpadLength needsByte (X ++ V) B = unpadLength needsByte V B := by
  have hlen : (X ++ V).length % B = V.length % B := by
    rw [List.length_append, Nat.add_mod, Nat.mod_eq_zero_of_dvd hX, Nat.zero_add, Nat.mod_mod]
  simp only [unpadLength, hlen, List.length_eq_zero_iff, List.append_eq_nil_iff, hV, and_false]

/-- R157, R160: so do the checks that the count modes share. -/
theorem unpadChecks_append {X V : Bytes} {B : Nat} (hX : B ∣ X.length) (hV : V ≠ []) :
    unpadChecks (X ++ V) B = unpadChecks V B := by
  simp only [unpadChecks, unpadLength_append hX hV, unpadValue, padByte_append X hV]

/-- R157: a tail that passes the length check and is not empty holds a whole block. -/
theorem le_length_of_unpadLength {V : Bytes} {B : Nat} {needsByte : Bool} (hV : V ≠ [])
    (h : unpadLength needsByte V B = none) : B ≤ V.length := by
  unfold unpadLength at h
  split_ifs at h with hmod
  exact Nat.le_of_dvd (List.length_pos_iff.mpr hV) (Nat.dvd_of_mod_eq_zero (not_not.mp hmod))

/-- R160: a tail that passes the shared checks has as many bytes as its count. -/
theorem padByte_le_length {V : Bytes} {B : Nat} (hV : V ≠ []) (h : unpadChecks V B = none) :
    padByte V ≤ V.length := by
  unfold unpadChecks at h
  split at h
  · cases h
  next hlen =>
    have hB := le_length_of_unpadLength hV hlen
    unfold unpadValue at h
    split_ifs at h with hvalue
    omega

theorem zeroTail_le (V : Bytes) (B : Nat) : zeroTail V B ≤ B :=
  (List.takeWhile_prefix _).length_le.trans (List.length_take_le _ _)

/-- R159: the count of zero bytes looks at the last B bytes alone. -/
theorem zeroTail_append {V : Bytes} {B : Nat} (X : Bytes) (h : B ≤ V.length) :
    zeroTail (X ++ V) B = zeroTail V B := by
  rw [zeroTail, List.reverse_append, List.take_append_of_le_length (by simpa using h), zeroTail]

/-- R157 to R163: unpadding reads the last block alone, so whole blocks before a tail stay before its unpadded text. -/
theorem unpad_append {mode : PadMode} {X V : Bytes} {B : Nat} (hX : B ∣ X.length)
    (hV : mode ≠ .noPad → V = [] → X = []) : unpad mode (X ++ V) B = (unpad mode V B).map (X ++ ·) := by
  by_cases hmode : mode = .noPad
  · subst hmode; rfl
  by_cases hne : V = []
  · obtain rfl := hV hmode hne
    cases h : unpad mode V B <;> simp [h, Except.map]
  have hchecks := unpadChecks_append hX hne
  have hbyte := padByte_append X hne
  cases mode with
  | noPad => exact absurd rfl hmode
  | zeros =>
    simp only [unpad, unpadZeros, unpadLength_append hX hne]
    cases h : unpadLength false V B with
    | some d => rfl
    | none =>
      have hB := le_length_of_unpadLength hne h
      simp [zeroTail_append X hB, dropTail_append X ((zeroTail_le V B).trans hB), Except.map]
  | pkcs7 | ansix923 | iso10126 =>
    simp only [unpad, unpadPkcs7, unpadAnsix923, unpadIso10126, hchecks, hbyte]
    cases h : unpadChecks V B with
    | some d => rfl
    | none =>
      have hle := padByte_le_length hne h
      simp only [dropTail_append X hle, lastBytes_append X hle, apply_ite (Except.map (X ++ ·))]
      rfl

/-! ### Unpadding a padded text -/

/-- What the count modes pad to: the text, a fill, and one byte that counts the fill and itself (R152, R154, R155). -/
def countPadded (P fill : Bytes) : Bytes := P ++ fill ++ [BitVec.ofNat 8 (fill.length + 1)]

theorem padByte_countPadded {P fill : Bytes} (h : fill.length < 255) :
    padByte (countPadded P fill) = fill.length + 1 := by
  rw [padByte, countPadded, List.getLastD_concat, BitVec.toNat_ofNat, Nat.mod_eq_of_lt (by omega)]

theorem dropTail_countPadded (P fill : Bytes) : dropTail (countPadded P fill) (fill.length + 1) = P := by
  rw [countPadded, List.append_assoc, dropTail_append P (by simp)]
  simp [dropTail]

theorem lastBytes_countPadded (P fill : Bytes) :
    lastBytes (countPadded P fill) (fill.length + 1) = fill ++ [BitVec.ofNat 8 (fill.length + 1)] := by
  rw [countPadded, List.append_assoc, lastBytes_append P (by simp)]
  simp [lastBytes]

/-- R157, R160: a text padded to whole blocks with at most one block passes the shared checks. -/
theorem unpadChecks_countPadded {P fill : Bytes} {B : Nat} (hB : B ≤ 32)
    (hfill : fill.length + 1 = padCount B P.length) (hpos : 1 ≤ B) : unpadChecks (countPadded P fill) B = none := by
  have hle := padCount_le B P.length
  have hmod : (countPadded P fill).length % B = 0 := by
    have := padCount_aligns hpos P.length
    rw [← hfill] at this
    simpa [countPadded, Nat.add_assoc] using this
  have hlen : unpadLength true (countPadded P fill) B = none := by
    rw [unpadLength, if_neg (not_not.mpr hmod), if_neg (by simp [countPadded])]
  have hbyte : padByte (countPadded P fill) = fill.length + 1 := padByte_countPadded (by omega)
  rw [unpadChecks, hlen]
  simp only [unpadValue, hbyte]
  rw [if_neg (by omega)]

/-- R152, R154, R155: the count modes pad with their own fill, one byte less than the pad count. -/
theorem pad_countPadded {mode : PadMode} (h : mode = .pkcs7 ∨ mode = .ansix923 ∨ mode = .iso10126) (P : Bytes)
    {B : Nat} (hB : 1 ≤ B) (s : State) :
    ∃ fill : Bytes, (pad mode P B s).1 = countPadded P fill ∧ fill.length + 1 = padCount B P.length ∧
      (mode = .pkcs7 → ∀ b ∈ fill, b = BitVec.ofNat 8 (fill.length + 1)) ∧ (mode = .ansix923 → ∀ b ∈ fill, b = 0) := by
  obtain ⟨k, hk⟩ : ∃ k, padCount B P.length = k + 1 := ⟨_, (Nat.sub_add_cancel (padCount_pos hB P.length)).symm⟩
  obtain rfl | rfl | rfl := h
  · exact ⟨List.replicate k (BitVec.ofNat 8 (k + 1)),
      by simp [pad, padPkcs7, hk, countPadded, List.replicate_succ', List.append_assoc], by simp [hk],
      fun _ b hb => by simpa using List.eq_of_mem_replicate hb, fun hm => PadMode.noConfusion hm⟩
  · exact ⟨zeros k, by simp [pad, padAnsix923, hk, countPadded], by simp [hk], fun hm => PadMode.noConfusion hm,
      fun _ _ hb => List.eq_of_mem_replicate hb⟩
  · exact ⟨(entropy k s).1, by simp [pad, padIso10126, hk, countPadded], by simp [hk],
      fun hm => PadMode.noConfusion hm, fun hm => PadMode.noConfusion hm⟩

/-- R166 for the count modes: the checks pass, each mode's fill check included, and the count cuts the padding off. -/
theorem unpad_pad_count {mode : PadMode} (h : mode = .pkcs7 ∨ mode = .ansix923 ∨ mode = .iso10126) (P : Bytes)
    {B : Nat} (hpos : 1 ≤ B) (hB : B ≤ 32) (s : State) : unpad mode (pad mode P B s).1 B = .ok P := by
  obtain ⟨fill, hpad, hfill, hpkcs7, hansi⟩ := pad_countPadded h P hpos s
  have hle := padCount_le B P.length
  have hchecks := unpadChecks_countPadded hB hfill hpos
  have hbyte : padByte (countPadded P fill) = fill.length + 1 := padByte_countPadded (by omega)
  have hcut := dropTail_countPadded P fill
  have hlast := lastBytes_countPadded P fill
  rw [hpad]
  obtain rfl | rfl | rfl := h
  · have hall : (fill ++ [BitVec.ofNat 8 (fill.length + 1)]).all (fun b => b.toNat == fill.length + 1) = true := by
      have hN : (BitVec.ofNat 8 (fill.length + 1)).toNat = fill.length + 1 :=
        BitVec.toNat_ofNat .. ▸ Nat.mod_eq_of_lt (by omega)
      refine List.all_eq_true.mpr fun b hb => ?_
      have hb : b = BitVec.ofNat 8 (fill.length + 1) :=
        (List.mem_append.mp hb).elim (hpkcs7 rfl b) List.mem_singleton.mp
      rw [hb, hN, beq_self_eq_true]
    simp only [unpad, unpadPkcs7, hchecks, hbyte, hlast, hall, hcut, if_true]
  · have hall : (fill ++ [BitVec.ofNat 8 (fill.length + 1)]).dropLast.all (fun b => b == 0) = true := by
      rw [List.dropLast_concat]
      exact List.all_eq_true.mpr fun b hb => by rw [hansi rfl b hb, beq_self_eq_true]
    simp only [unpad, unpadAnsix923, hchecks, hbyte, hlast, hall, hcut, if_true]
  · simp only [unpad, unpadIso10126, hchecks, hbyte, hcut]

/-- R153: Zeros adds fewer than B zero bytes, up to whole blocks. -/
theorem padZeros_eq (P : Bytes) {B : Nat} (hB : 1 ≤ B) :
    ∃ k < B, padZeros P B = P ++ zeros k ∧ (P.length + k) % B = 0 := by
  have hlt := Nat.mod_lt P.length hB
  unfold padZeros
  split_ifs with h
  · exact ⟨0, by omega, by simp, by simpa using h⟩
  · refine ⟨B - P.length % B, by omega, rfl, padCount_aligns hB P.length⟩

/-- R159: zero bytes behind a text that is empty or does not end in 0x00 are all the zero bytes counted. -/
theorem zeroTail_append_zeros {P : Bytes} {B k : Nat} (hk : k ≤ B) (hP : P = [] ∨ P.getLast? ≠ some 0) :
    zeroTail (P ++ zeros k) B = k := by
  have hrest : (P.reverse.take (B - k)).takeWhile (· == 0) = [] := by
    rcases List.eq_nil_or_concat P with rfl | ⟨Q, b, rfl⟩
    · simp
    · have hb : b ≠ 0#8 := by simpa using hP
      cases B - k <;> simp [hb]
  rw [zeroTail, List.reverse_append, List.reverse_replicate, List.take_append, List.length_replicate,
    List.take_of_length_le (by simpa using hk), List.takeWhile_append_of_pos (by simp), hrest, List.append_nil,
    List.length_replicate]

/-- R166 for Zeros. -/
theorem unpad_pad_zeros {P : Bytes} {B : Nat} (hB : 1 ≤ B) (hP : P = [] ∨ P.getLast? ≠ some 0) (s : State) :
    unpad .zeros (pad .zeros P B s).1 B = .ok P := by
  obtain ⟨k, hk, hpad, hmod⟩ := padZeros_eq P hB
  have hlen : unpadLength false (P ++ zeros k) B = none := by
    rw [unpadLength, if_neg (by simpa using hmod), if_neg (by simp)]
  simp only [pad, hpad, unpad, unpadZeros, hlen, zeroTail_append_zeros hk.le hP]
  simp [dropTail]

/-- R166: unpadding a padded text gives it back; under Zeros if the text is empty or does not end in 0x00. -/
theorem unpad_pad {mode : PadMode} {P : Bytes} {B : Nat} (hpos : 1 ≤ B) (hB : B ≤ 32) (s : State)
    (hP : mode = .zeros → P = [] ∨ P.getLast? ≠ some 0) : unpad mode (pad mode P B s).1 B = .ok P := by
  cases mode with
  | noPad => rfl
  | zeros => exact unpad_pad_zeros hpos (hP rfl) s
  | pkcs7 | ansix923 | iso10126 => exact unpad_pad_count (by simp) P hpos hB s

end Sys2Proof.Machine

end

section
/-! Keystream draws in sequence (R116, R133, R181, R182): XORing a text in two parts is XORing it whole,
when the first part ends on a keystream block; and what XORing depends on. -/

namespace Sys2Proof.Machine

/-! ### Consecutive draws -/

/-- R115, R116: after a draw of whole blocks the next draw goes on where it ended. -/
theorem rabbit_draw_add {m : Nat} (hm : 16 ∣ m) (n : Nat) (r : Rabbit) :
    r.draw (m + n) = ((r.draw m).1 ++ ((r.draw m).2.draw n).1, ((r.draw m).2.draw n).2) := by
  obtain ⟨k, rfl⟩ := hm
  have hwhole : blocksFor (16 * k) = k := by unfold blocksFor; omega
  have hsum : blocksFor (16 * k + n) = k + blocksFor n := by unfold blocksFor; omega
  refine Prod.ext ?_ ?_
  · have hfirst : (Rabbit.blocks k r).1.length = 16 * k := blocks_length k r
    simp only [draw_bytes, draw_state, hwhole, hsum, blocks_add]
    rw [← hfirst, List.take_length_add_append, List.take_length]
  · simp only [draw_state, hwhole, hsum, iterates_add]

/-- R133: two draws in sequence are one. -/
theorem rc4_draw_add (m n : Nat) (r : Rc4) :
    r.draw (m + n) = ((r.draw m).1 ++ ((r.draw m).2.draw n).1, ((r.draw m).2.draw n).2) := by
  induction m generalizing r with
  | zero => simp [rc4_draw_zero]
  | succ m ih => rw [Nat.succ_add, rc4_draw_succ, ih, rc4_draw_succ, List.cons_append]

/-- R181: two draws in sequence are one, when the first leaves no part of a Rabbit block behind. -/
theorem ks_add {m : Nat} {s : State} (hm : s.eng = .rabbit → 16 ∣ m) (n : Nat) :
    ks (m + n) s = ((ks m s).1 ++ (ks n (ks m s).2).1, (ks n (ks m s).2).2) := by
  cases he : s.eng with
  | rabbit => simp [ks, he, rabbit_draw_add (hm he)]
  | rc4 => simp [ks, he, rc4_draw_add]

/-! ### Consecutive XORs -/

theorem xorBytes_append {D K : Bytes} (h : D.length = K.length) (E L : Bytes) :
    xorBytes (D ++ E) (K ++ L) = xorBytes D K ++ xorBytes E L := List.zipWith_append h

/-- XORing the same bytes twice gives the text back. -/
theorem xorBytes_xorBytes {D K : Bytes} (h : D.length ≤ K.length) : xorBytes (xorBytes D K) K = D := by
  refine List.ext_getElem (by simpa using h) fun n _ _ => ?_
  simp [xorBytes]

/-- R182: XORing a text in two parts is XORing it whole, when the first part leaves no part of a Rabbit block behind. -/
theorem xorKs_append {D : Bytes} {s : State} (hD : s.eng = .rabbit → 16 ∣ D.length) (E : Bytes) :
    xorKs (D ++ E) s = ((xorKs D s).1 ++ (xorKs E (xorKs D s).2).1, (xorKs E (xorKs D s).2).2) := by
  have hmid : (xorKs D s).2 = (ks D.length s).2.atPosition (s.m + BitVec.ofNat 64 D.length) := xorKs_state D s
  refine Prod.ext ?_ ?_
  · rw [xorKs_bytes, List.length_append, ks_add hD, xorBytes_append (by simp), hmid, xorKs_atPosition]
    rfl
  · rw [xorKs_state, List.length_append, ks_add hD, hmid, xorKs_atPosition, BitVec.ofNat_add, ← BitVec.add_assoc]
    simp only [xorKs_state, State.atPosition, ks_m]

/-- R182: nothing is drawn for the empty text. -/
theorem xorKs_nil (s : State) : xorKs [] s = ([], s) := by
  have hks : ks 0 s = ([], s) := by
    rcases s with ⟨_, _, _, _, _ | _⟩ <;> rfl
  simp [xorKs, hks, xorBytes]

/-- R182: under equal keystream, XORing is its own inverse. -/
theorem xorKs_xorKs (D : Bytes) (s : State) : (xorKs (xorKs D s).1 s).1 = D := by
  rw [xorKs_bytes (xorKs D s).1, xorKs_length, xorKs_bytes, xorBytes_xorBytes (by simp)]

/-! ### The bound engine is all that XORing reads -/

/-- The two states have the same engine bound, and the engines stand at the same place. -/
structure SameEngine (s t : State) : Prop where
  eng : t.eng = s.eng
  rabbit : t.rabbit = s.rabbit
  rc4 : t.rc4 = s.rc4

theorem SameEngine.refl (s : State) : SameEngine s s := ⟨rfl, rfl, rfl⟩

theorem SameEngine.trans {s t u : State} (h : SameEngine s t) (h' : SameEngine t u) : SameEngine s u :=
  ⟨h'.eng.trans h.eng, h'.rabbit.trans h.rabbit, h'.rc4.trans h.rc4⟩

theorem SameEngine.xorKs_bytes_eq {s t : State} (h : SameEngine s t) (D : Bytes) : (xorKs D t).1 = (xorKs D s).1 := by
  obtain ⟨heng, hrabbit, hrc4⟩ := h
  simp only [xorKs_bytes, ks, heng, hrabbit, hrc4]
  cases s.eng <;> rfl

theorem SameEngine.after_xorKs {s t : State} (h : SameEngine s t) (D : Bytes) :
    SameEngine (xorKs D s).2 (xorKs D t).2 := by
  obtain ⟨heng, hrabbit, hrc4⟩ := h
  simp only [xorKs_state, ks_state]
  exact ⟨heng, by simp only [heng, hrabbit], by simp only [heng, hrc4]⟩

/-- XORing `D` from the place of `s` gives `E` and leads to the place of `t`. -/
structure Streams (s : State) (D E : Bytes) (t : State) : Prop where
  bytes : (xorKs D s).1 = E
  engine : SameEngine (xorKs D s).2 t

theorem streams_xorKs (D : Bytes) (s : State) : Streams s D (xorKs D s).1 (xorKs D s).2 := ⟨rfl, .refl _⟩

theorem Streams.refl (s : State) : Streams s [] [] s := ⟨by rw [xorKs_nil], by rw [xorKs_nil]; exact .refl s⟩

theorem Streams.congr_right {s t u : State} {D E : Bytes} (h : Streams s D E t) (hu : SameEngine t u) :
    Streams s D E u := ⟨h.bytes, h.engine.trans hu⟩

/-- R182: one text after another. -/
theorem Streams.append {s t u : State} {D D' E E' : Bytes} (h : Streams s D E t)
    (hD : s.eng = .rabbit → 16 ∣ D.length) (h' : Streams t D' E' u) : Streams s (D ++ D') (E ++ E') u := by
  constructor
  · rw [xorKs_append hD, h.bytes, ← h'.bytes, h.engine.xorKs_bytes_eq]
  · rw [xorKs_append hD]
    exact (h.engine.after_xorKs D').trans h'.engine

end Sys2Proof.Machine

end

section
/-! Runs of transform commands (R87, R205, R206): how much of the stream a run has XORed, and what a whole encryption
and a whole decryption answer in any chunking (R187). -/

namespace Sys2Proof.Machine

/-! ### A transform ready for data, and the block it holds -/

/-- A transform that takes data: ACTIVE, with a legal block size, and a block held only in lookahead mode. -/
structure State.Ready (s : State) : Prop where
  active : s.st = .active
  blockSizeLegal : s.BlockSizeLegal
  heldLegal : s.HeldLegal

/-- The ciphertext that has been taken and not yet been XORed: the held block, if there is one (R184, R185). -/
def State.pending (s : State) : Bytes := if s.laValid then s.heldBlock else []

section
variable {s : State}

theorem State.Ready.bs_bounds (h : s.Ready) : 1 ≤ s.bs.toNat ∧ s.bs.toNat ≤ 32 := by
  obtain ⟨hrabbit, hrc4⟩ := h.blockSizeLegal (by simp [h.active])
  cases he : s.eng with
  | rabbit => have := hrabbit he; omega
  | rc4 => exact hrc4 he

/-- R31: whole blocks of the transform leave no part of a Rabbit block behind. -/
theorem State.Ready.draws_whole (h : s.Ready) {n : Nat} (hn : s.bs.toNat ∣ n) : s.eng = .rabbit → 16 ∣ n := fun he =>
  (h.blockSizeLegal (by simp [h.active])).1 he ▸ hn

theorem State.Ready.of_sameConfig {t : State} (h : s.Ready) (hc : SameConfig s t) (ht : t.HeldLegal) : t.Ready := by
  refine ⟨hc.st.trans h.active, fun _ => ?_, ht⟩
  rw [hc.eng, hc.bs]
  exact h.blockSizeLegal (by simp [h.active])

theorem pending_of_not_laValid (h : s.laValid = false) : s.pending = [] := by simp [State.pending, h]

/-- R41 (b): outside lookahead mode nothing is held. -/
theorem State.Ready.not_laValid (h : s.Ready) (hla : s.laMode = false) : s.laValid = false := by
  cases hv : s.laValid with
  | false => rfl
  | true => rw [(laMode_iff s).mpr (h.heldLegal hv).2] at hla; cases hla

theorem State.Ready.bs_dvd_pending (h : s.Ready) : s.bs.toNat ∣ s.pending.length := by
  unfold State.pending
  split_ifs
  · rw [heldBlock_length, min_eq_left h.bs_bounds.2]
  · exact dvd_zero _

/-- R184: after Hold the block held is pending. -/
theorem pending_hold {blk : Bytes} (hlen : blk.length = s.bs.toNat) (hbs : s.bs.toNat ≤ 32) :
    (hold blk s).pending = blk := by
  have hbuf : (storeBlock s.laBuf blk).toList.take s.bs.toNat = blk := by
    refine List.ext_getElem (by simp [hlen, hbs]) fun n hn hn' => ?_
    simp [storeBlock, hn']
  rw [State.pending, if_pos (hold_laValid ..), State.heldBlock, hold_laBuf, hold_bs, hbuf]

/-- R185: Release XORs what is pending. -/
theorem release_streams (s : State) : Streams s s.pending (release s).1 (release s).2 := by
  obtain ⟨hv, hr⟩ | ⟨hv, hr⟩ := release_cases s <;> rw [hr]
  · rw [State.pending, if_pos hv]
    exact (streams_xorKs _ s).congr_right ⟨rfl, rfl, rfl⟩
  · rw [pending_of_not_laValid hv]
    exact Streams.refl s

end

/-! ### Progress along the stream -/

/-- From `s` to `t` the input `D` has been taken: whole blocks of what was pending and of `D` have been XORed to `out`,
and the rest is pending. In lookahead mode a rest stays whenever anything has been XORed (R186). -/
structure Advances (s t : State) (D out : Bytes) : Prop where
  config : SameConfig s t
  heldLegal : t.HeldLegal
  moved : ∃ X, s.pending ++ D = X ++ t.pending ∧ s.bs.toNat ∣ X.length ∧ Streams s X out t ∧
    (s.laMode = true → t.pending = [] → X = [])

theorem State.Ready.advances_refl {s : State} (h : s.Ready) : Advances s s [] [] :=
  ⟨.refl s, h.heldLegal, [], by simp, dvd_zero _, .refl s, fun _ _ => rfl⟩

theorem Advances.respond {s t : State} {D out : Bytes} (h : Advances s t D out) (r : Response) :
    Advances s (respond r t) D out := by
  obtain ⟨⟨hst, hdir, heng, hpadm, hbs, hmin⟩, hheld, X, hX, hdvd, hstream, hrest⟩ := h
  exact ⟨⟨hst, hdir, heng, hpadm, hbs, hmin⟩, hheld, X, hX, hdvd, hstream.congr_right ⟨rfl, rfl, rfl⟩, hrest⟩

theorem SameConfig.laMode_eq {s t : State} (h : SameConfig s t) : t.laMode = s.laMode := by
  rw [State.laMode, h.dir, h.padm, State.laMode]

theorem Advances.trans {s t u : State} {D D' out out' : Bytes} (hs : s.Ready) (h : Advances s t D out)
    (h' : Advances t u D' out') : Advances s u (D ++ D') (out ++ out') := by
  obtain ⟨hc, -, X, hX, hdvd, hstream, hrest⟩ := h
  obtain ⟨hc', hheld', X', hX', hdvd', hstream', hrest'⟩ := h'
  refine ⟨hc.trans hc', hheld', X ++ X', ?_, ?_, hstream.append (hs.draws_whole hdvd) hstream', fun hla hu => ?_⟩
  · rw [← List.append_assoc, hX, List.append_assoc, hX', List.append_assoc]
  · rw [List.length_append]
    exact dvd_add hdvd (hc.bs ▸ hdvd')
  · obtain rfl := hrest' (hc.laMode_eq.trans hla) hu
    rw [hu, List.append_nil, List.append_eq_nil_iff] at hX'
    rw [hrest hla hX'.1, List.append_nil]

/-- R205: what XFORM_BLOCK's datapath XORs, in either mode. -/
theorem blockTransform_advances {s : State} (hs : s.Ready) {D : Bytes} (hD : ChunkLegal s.bs.toNat D) :
    Advances s (blockTransform D s).2 D (blockTransform D s).1 := by
  have hc := blockTransform_sameConfig D s
  have hv := blockTransform_laValid D s
  obtain ⟨hne, hmod⟩ := hD
  have hdvd : s.bs.toNat ∣ D.length := Nat.dvd_of_mod_eq_zero hmod
  have hle : s.bs.toNat ≤ D.length := Nat.le_of_dvd (List.length_pos_iff.mpr hne) hdvd
  obtain ⟨hpos, hbs⟩ := hs.bs_bounds
  cases hla : s.laMode with
  | false =>
    rw [hla, hs.not_laValid hla] at hv
    refine ⟨hc, fun ht => absurd ht (by simp [hv]), D, ?_, hdvd, ?_, fun hl => absurd hl (by simp [hla])⟩
    · rw [pending_of_not_laValid hv, pending_of_not_laValid (hs.not_laValid hla), List.append_nil, List.nil_append]
    · rw [blockTransform_passThrough hla]
      exact streams_xorKs D s
  | true =>
    have hstream := (release_streams s).append (hs.draws_whole hs.bs_dvd_pending)
      (streams_xorKs (D.take (D.length - s.bs.toNat)) (release s).2)
    have hrest : (blockTransform D s).2.pending = D.drop (D.length - s.bs.toNat) := by
      rw [blockTransform_lookahead hla]
      refine pending_hold ?_ ?_ <;> simp [(release_sameConfig s).bs] <;> omega
    refine ⟨hc, fun _ => ?_, s.pending ++ D.take (D.length - s.bs.toNat), ?_, ?_, ?_, fun _ ht => ?_⟩
    · rw [hc.st, hc.dir, hc.padm]
      exact ⟨hs.active, (laMode_iff s).mp hla⟩
    · rw [hrest, List.append_assoc, List.take_append_drop]
    · rw [List.length_append, List.length_take, min_eq_left (Nat.sub_le ..)]
      exact dvd_add hs.bs_dvd_pending (Nat.dvd_sub hdvd dvd_rfl)
    · rw [blockTransform_lookahead hla]
      exact hstream.congr_right ⟨hold_eng .., hold_rabbit .., hold_rc4 ..⟩
    · rw [hrest, List.drop_eq_nil_iff] at ht
      omega

/-! ### Runs in which every command succeeds -/

/-- The run of `is` from `s` ends in `t`; every command succeeds, and `out` is what they output together (R87). -/
structure Succeeds (is : List Instr) (s t : State) (out : Bytes) : Prop where
  run : execAll is s = .next t
  responses : ∃ rs, t.outbox = s.outbox ++ rs ∧ rs.length = is.length ∧ (∀ r ∈ rs, r.status = 0) ∧
    (rs.map Response.out).flatten = out

section
variable {s t u : State} {is js : List Instr} {i : Instr} {out out' : Bytes}

theorem Succeeds.nil (s : State) : Succeeds [] s s [] := ⟨rfl, [], by simp, rfl, by simp, rfl⟩

/-- A command that answers a success. -/
theorem Succeeds.of_answers {r : Response} (h : Answers i s t r) (hr : r.status = 0) : Succeeds [i] s t r.out := by
  obtain ⟨hx, hout, -⟩ := h
  exact ⟨execAll_cons_of_next hx [], [r], hout, rfl, by simpa using hr, by simp⟩

theorem execAll_append (h : execAll is s = .next t) (js : List Instr) : execAll (is ++ js) s = execAll js t := by
  induction is generalizing s with
  | nil => cases h; rfl
  | cons i is ih =>
    obtain ⟨u, -, hx, -⟩ := exec_answers i s
    rw [execAll_cons_of_next hx] at h
    rw [List.cons_append, execAll_cons_of_next hx, ih h]

theorem Succeeds.append (h : Succeeds is s t out) (h' : Succeeds js t u out') :
    Succeeds (is ++ js) s u (out ++ out') := by
  obtain ⟨hrun, rs, hbox, hlen, hstatus, rfl⟩ := h
  obtain ⟨hrun', rs', hbox', hlen', hstatus', rfl⟩ := h'
  refine ⟨(execAll_append hrun js).trans hrun', rs ++ rs', by rw [hbox', hbox, List.append_assoc],
    by simp [hlen, hlen'], fun r hr => (List.mem_append.mp hr).elim (hstatus r) (hstatus' r), by simp⟩

theorem Succeeds.allSucceed (h : Succeeds is s t out) : AllSucceed is.length s t := by
  obtain ⟨-, rs, hbox, hlen, hstatus, -⟩ := h
  exact ⟨by rw [hbox, List.length_append, hlen], by simpa [hbox] using hstatus⟩

theorem Succeeds.newOutput_eq (h : Succeeds is s t out) : newOutput s t = out := by
  obtain ⟨-, rs, hbox, -, -, hout⟩ := h
  simpa [newOutput, hbox] using hout

end

/-! ### The commands of a stream -/

theorem count_toNat {D : Bytes} (h : D.length < 2 ^ 32) : (BitVec.ofNat 32 D.length).toNat = D.length := by
  rw [BitVec.toNat_ofNat, Nat.mod_eq_of_lt h]

/-- R51: COUNT bytes from the start are the whole payload when COUNT is its length. -/
theorem payloadRead_all {D : Bytes} (h : D.length < 2 ^ 32) :
    payloadRead D 0 (BitVec.ofNat 32 D.length).toNat = D := by
  rw [count_toNat h, payloadRead, List.take_length, List.drop_zero]

/-- R205: an XFORM_BLOCK of a legal chunk passes its checks. -/
theorem xformBlockCheck_chunk {s : State} (hs : s.Ready) {D : Bytes} (hD : ChunkLegal s.bs.toNat D)
    (hlen : D.length < 2 ^ 32) :
    xformBlockCheck (BitVec.ofNat 32 D.length) (BitVec.ofNat 32 D.length) D s = none := by
  obtain ⟨hne, hmod⟩ := hD
  simp only [xformBlockCheck, count_toNat hlen]
  simp [hs.active, hne, hmod]

/-- R206: the XFORM_FINAL of a whole tail passes its checks. -/
theorem xformFinalCheck_tail {s : State} (hs : s.Ready) {D : Bytes} (hlen : D.length < 2 ^ 32) :
    xformFinalCheck (BitVec.ofNat 32 D.length) D s = none := by
  simp only [xformFinalCheck, count_toNat hlen]
  simp [hs.active]

/-- R205: the XFORM_BLOCK of a legal chunk succeeds, and advances by the chunk. -/
theorem succeeds_chunk {s : State} (hs : s.Ready) {D : Bytes} (hD : ChunkLegal s.bs.toNat D)
    (hlen : D.length < 2 ^ 32) : ∃ t out, Succeeds (blockCommands [D]) s t out ∧ Advances s t D out := by
  have hx := exec_xformBlock_accepted (xformBlockCheck_chunk hs hD hlen)
  rw [payloadRead_all hlen] at hx
  exact ⟨_, _, Succeeds.of_answers (answers_respond hx (blockTransform_inbox ..) (blockTransform_outbox ..)) rfl,
    (blockTransform_advances hs hD).respond _⟩

/-- R205: the XFORM_BLOCKs of legal chunks succeed, and advance by all of them. -/
theorem succeeds_chunks {chunks : List Bytes} {s : State} (hs : s.Ready)
    (hchunks : ∀ D ∈ chunks, ChunkLegal s.bs.toNat D) (hlen : ∀ D ∈ chunks, D.length < 2 ^ 32) :
    ∃ t out, Succeeds (blockCommands chunks) s t out ∧ Advances s t chunks.flatten out := by
  induction chunks generalizing s with
  | nil => exact ⟨s, [], .nil s, hs.advances_refl⟩
  | cons D chunks ih =>
    obtain ⟨hD, hrest⟩ := List.forall_mem_cons.mp hchunks
    obtain ⟨hDlen, hrestlen⟩ := List.forall_mem_cons.mp hlen
    obtain ⟨t, out, hrun, hadv⟩ := succeeds_chunk hs hD hDlen
    obtain ⟨u, out', hrun', hadv'⟩ := ih (hs.of_sameConfig hadv.config hadv.heldLegal)
      (by rwa [hadv.config.bs]) hrestlen
    exact ⟨u, out ++ out', hrun.append hrun', hadv.trans hs hadv'⟩

/-- R206: an XFORM_FINAL whose datapath gives `out` succeeds with it. -/
theorem succeeds_final {s : State} (hs : s.Ready) {D out : Bytes} (hlen : D.length < 2 ^ 32)
    (h : (finalTransform D s).1 = .ok out) : ∃ t, Succeeds [finalCommand D] s t out := by
  have hx := exec_xformFinal_accepted (xformFinalCheck_tail hs hlen)
    (show finalTransform (payloadRead D 0 (BitVec.ofNat 32 D.length).toNat) s = (.ok out, (finalTransform D s).2) by
      rw [payloadRead_all hlen, ← h])
  exact ⟨_, Succeeds.of_answers (answers_respond hx (by simp) (by simp)) rfl⟩

/-- R206: a decrypting XFORM_FINAL unpads what is pending and its input, decrypted. -/
theorem finalTransform_decrypt {s : State} (hs : s.Ready) (hdir : s.dir = .decrypt) (D : Bytes) :
    (finalTransform D s).1 = unpad s.padm (xorKs (s.pending ++ D) s).1 s.bs.toNat := by
  by_cases hp : s.padm = .noPad
  · have hla : s.laMode = false := by simp [State.laMode, hp]
    rw [finalTransform_decryptNone hdir hp, pending_of_not_laValid (hs.not_laValid hla), hp]
    rfl
  · have htail := (release_streams s).append (hs.draws_whole hs.bs_dvd_pending) (streams_xorKs D (release s).2)
    rw [finalTransform_decryptPadded hdir hp, htail.bytes]
    rfl

/-! ### A whole encryption and a whole decryption -/

/-- The lengths of a stream's commands are below that of the stream. -/
theorem length_lt_of_mem_chunks {chunks : List Bytes} {tail : Bytes} {n : Nat}
    (h : (chunks.flatten ++ tail).length < n) : (∀ D ∈ chunks, D.length < n) ∧ tail.length < n := by
  rw [List.length_append] at h
  refine ⟨fun D hD => ?_, by omega⟩
  have := (List.sublist_flatten_of_mem hD).length_le
  omega

/-- R187: an encryption outputs the padded plaintext, encrypted, in any chunking. -/
theorem succeeds_encryption {chunks : List Bytes} {tail : Bytes} {s : State} (hs : s.Ready) (hdir : s.dir = .encrypt)
    (hchunks : ∀ D ∈ chunks, ChunkLegal s.bs.toNat D) (hlen : (chunks.flatten ++ tail).length < 2 ^ 32) :
    ∃ t u, Succeeds (streamCommands chunks tail) s t
      (xorKs (pad s.padm (chunks.flatten ++ tail) s.bs.toNat u).1 s).1 := by
  obtain ⟨hlens, htail⟩ := length_lt_of_mem_chunks hlen
  obtain ⟨u, out, hrun, hadv⟩ := succeeds_chunks hs hchunks hlens
  have hu := hs.of_sameConfig hadv.config hadv.heldLegal
  obtain ⟨hc, -, X, hX, hdvd, hstream, -⟩ := hadv
  have hpass {v : State} (hv : v.Ready) (hvdir : v.dir = .encrypt) : v.pending = [] :=
    pending_of_not_laValid (hv.not_laValid (by simp [State.laMode, hvdir]))
  rw [hpass hs hdir, hpass hu (hc.dir.trans hdir), List.nil_append, List.append_nil] at hX
  subst hX
  have hfinal : (finalTransform tail u).1 = .ok (xorKs (pad s.padm tail s.bs.toNat u).1 u).1 := by
    rw [finalTransform_encrypt (hc.dir.trans hdir), finalEncrypt_eq, hc.padm, hc.bs]
  obtain ⟨t, hrun'⟩ := succeeds_final hu htail hfinal
  refine ⟨t, u, ?_⟩
  rw [pad_append hdvd, (hstream.append (hs.draws_whole hdvd) (streams_xorKs _ u)).bytes]
  exact hrun.append hrun'

/-- R187: a decryption outputs the decrypted ciphertext, unpadded, in any chunking. -/
theorem succeeds_decryption {chunks : List Bytes} {tail Q : Bytes} {s : State} (hs : s.Ready)
    (hdir : s.dir = .decrypt) (hheld : s.laValid = false) (hchunks : ∀ D ∈ chunks, ChunkLegal s.bs.toNat D)
    (hlen : (chunks.flatten ++ tail).length < 2 ^ 32)
    (hQ : unpad s.padm (xorKs (chunks.flatten ++ tail) s).1 s.bs.toNat = .ok Q) :
    ∃ t, Succeeds (streamCommands chunks tail) s t Q := by
  obtain ⟨hlens, htail⟩ := length_lt_of_mem_chunks hlen
  obtain ⟨u, out, hrun, hadv⟩ := succeeds_chunks hs hchunks hlens
  have hu := hs.of_sameConfig hadv.config hadv.heldLegal
  obtain ⟨hc, -, X, hX, hdvd, hstream, hrest⟩ := hadv
  rw [pending_of_not_laValid hheld, List.nil_append] at hX
  have hout : out.length = X.length := by rw [← hstream.bytes, xorKs_length]
  have hwhole : (xorKs (chunks.flatten ++ tail) s).1 = out ++ (xorKs (u.pending ++ tail) u).1 := by
    rw [hX, List.append_assoc]
    exact (hstream.append (hs.draws_whole hdvd) (streams_xorKs _ u)).bytes
  rw [hwhole, unpad_append (hout ▸ hdvd)] at hQ
  · cases hlast : unpad s.padm (xorKs (u.pending ++ tail) u).1 s.bs.toNat with
    | error d => rw [hlast] at hQ; cases hQ
    | ok Q' =>
      rw [hlast] at hQ
      cases hQ
      obtain ⟨t, hrun'⟩ := succeeds_final hu htail
        (by rw [finalTransform_decrypt hu (hc.dir.trans hdir), hc.padm, hc.bs, hlast])
      exact ⟨t, hrun.append hrun'⟩
  · intro hp hnil
    rw [← List.length_eq_zero_iff, xorKs_length, List.length_eq_zero_iff, List.append_eq_nil_iff] at hnil
    rw [← List.length_eq_zero_iff, hout, hrest ((laMode_iff s).mpr ⟨hdir, hp⟩) hnil.1, List.length_nil]

end Sys2Proof.Machine

end

section
/-! Decrypting an encryption (R87, R166, R182, R187). -/

namespace Sys2Proof.Machine

/-! ### The legal INITs -/

theorem padMode_ofField_code (padm : PadMode) : PadMode.ofField padm.code = some padm := by cases padm <;> rfl

/-- R78: the block size as a number. -/
theorem blockSizeOf_toNat (bsz : BitVec 8) : (blockSizeOf bsz).toNat = if bsz = 0 then 16 else bsz.toNat := by
  unfold blockSizeOf
  split_ifs <;> rfl

/-- R203: a legal INIT with ENG = 0 passes InitCheck. -/
theorem initCheck_of_rabbitInitLegal {o : InitOps} {padm : PadMode} {s : State} (h : RabbitInitLegal o padm s) :
    initCheck o s = .ok (.rabbit, padm) := by
  obtain ⟨hst, heng, hpadm, hchm, hkey, hiv, hbsz, hpayload⟩ := h
  have hcovers : ¬ o.payload.length < o.keylen.toNat + o.ivlen.toNat := by rw [hkey]; exact not_lt.mpr hpayload
  have hkeyLegal : keyLengthLegal .rabbit s.rc4MinKeyBytes o.keylen.toNat = true := by rw [hkey]; rfl
  have hivLegal : ivLengthLegal .rabbit o.ivlen.toNat = true := by obtain h | h := hiv <;> rw [h] <;> rfl
  have hbsLegal : blockSizeLegal .rabbit (blockSizeOf o.bsz).toNat = true := by
    obtain h | h := hbsz <;> rw [h] <;> rfl
  have hfield : Engine.ofField o.eng = some .rabbit := by rw [heng]; rfl
  have hnokey : ¬ o.keylen = 0 := by rw [hkey]; decide
  simp only [initCheck, hst, hfield, hnokey, hcovers, hkeyLegal, hivLegal, hbsLegal, hchm, hpadm, padMode_ofField_code,
    if_false, ne_eq, not_true_eq_false, Bool.not_true, Bool.false_eq_true]

/-- R203: a legal INIT with ENG = 1 passes InitCheck. -/
theorem initCheck_of_rc4InitLegal {o : InitOps} {padm : PadMode} {s : State} (h : Rc4InitLegal o padm s) :
    initCheck o s = .ok (.rc4, padm) := by
  obtain ⟨hst, heng, hpadm, hchm, hkey, hmin, hmax, hbsz, hpayload⟩ := h
  have hcovers : ¬ o.payload.length < o.keylen.toNat + o.ivlen.toNat := not_lt.mpr hpayload
  have hkeyLegal : keyLengthLegal .rc4 s.rc4MinKeyBytes o.keylen.toNat = true := by
    simp [keyLengthLegal, hmin, hmax, Config.rc4MaxKeyBytes]
  have hivLegal : ivLengthLegal .rc4 o.ivlen.toNat = true := rfl
  have hbsLegal : blockSizeLegal .rc4 (blockSizeOf o.bsz).toNat = true := by
    have hpos : o.bsz ≠ 0 → 1 ≤ o.bsz.toNat := fun hne =>
      Nat.one_le_iff_ne_zero.mpr fun hz => hne (BitVec.eq_of_toNat_eq hz)
    rw [blockSizeOf_toNat]
    split_ifs with hz
    · rfl
    · simp [blockSizeLegal, Config.maxBs, hpos hz, hbsz]
  have hfield : Engine.ofField o.eng = some .rc4 := by rw [heng]; rfl
  simp only [initCheck, hst, hfield, hkey, hcovers, hkeyLegal, hivLegal, hbsLegal, hchm, hpadm, padMode_ofField_code,
    if_false, ne_eq, not_true_eq_false, Bool.not_true, Bool.false_eq_true]

/-- R201, R202, R204: an INIT that passes its checks succeeds, without output. -/
theorem succeeds_init {i : Instr} {dir : Direction} {o : InitOps} {s : State} {eng : Engine} {padm : PadMode}
    (hx : exec i s = .next (initWith dir o s)) (hc : initCheck o s = .ok (eng, padm)) :
    Succeeds [i] s (respond (okResponse 0 []) (initCommon dir eng padm o s)) [] := by
  have hw : initWith dir o s = respond (okResponse 0 []) (initCommon dir eng padm o s) := by rw [initWith, hc]
  rw [hw] at hx
  exact Succeeds.of_answers (answers_respond hx (initCommon_inbox ..) (initCommon_outbox ..)) rfl

/-- The state right after an INIT: a transform ready for data, with nothing held. -/
structure State.Starts (s : State) (dir : Direction) (padm : PadMode) (B : Nat) : Prop where
  ready : s.Ready
  dir : s.dir = dir
  padm : s.padm = padm
  bs : s.bs.toNat = B
  not_laValid : s.laValid = false

/-- R204: what a successful INIT leaves. -/
theorem initCommon_starts {dir : Direction} {o : InitOps} {s : State} {eng : Engine} {padm : PadMode}
    (hc : initCheck o s = .ok (eng, padm)) (r : Response) :
    (respond r (initCommon dir eng padm o s)).Starts dir padm (if o.bsz = 0 then 16 else o.bsz.toNat) := by
  have hready : (respond r (initCommon dir eng padm o s)).Ready :=
    ⟨rfl, fun _ => by simpa using blockSizeLegal_cases (initCheck_ok hc).2, fun hv => by simp at hv⟩
  exact ⟨hready, by simp, by simp, by simp [blockSizeOf_toNat], by simp⟩

/-- R114, R204, R260: the Rabbit registers after INIT are set up from their reset values, or left there. -/
theorem initCommon_rabbit (dir : Direction) (eng : Engine) (padm : PadMode) (o : InitOps) (s : State) :
    (initCommon dir eng padm o s).rabbit =
      if eng = .rabbit then Rabbit.reset.setup (initKey o) (initIvOption o) else Rabbit.reset := by
  cases eng <;> simp [initCommon, engineSetup, counterConstants_eq s.rabbit.a Rabbit.reset.a, Rabbit.reset]

/-- R130, R204, R260: so are the RC4 registers. -/
theorem initCommon_rc4 (dir : Direction) (eng : Engine) (padm : PadMode) (o : InitOps) (s : State) :
    (initCommon dir eng padm o s).rc4 =
      if eng = .rc4 then Rc4.ksa (keyMaterial (initKey o) (initIv o)) else Rc4.reset := by
  cases eng <;> simp [initCommon, engineSetup]

/-- R204: the engine that INIT sets up depends on its operands alone, not on the direction or on the state before. -/
theorem initCommon_sameEngine (dir dir' : Direction) (eng : Engine) (padm : PadMode) (o : InitOps) (s s' : State)
    (r : Response) :
    SameEngine (respond r (initCommon dir eng padm o s)) (respond r (initCommon dir' eng padm o s')) := by
  constructor
  · rw [respond_eng, respond_eng, initCommon_eng, initCommon_eng]
  · rw [respond_rabbit, respond_rabbit, initCommon_rabbit, initCommon_rabbit]
  · rw [respond_rc4, respond_rc4, initCommon_rc4, initCommon_rc4]

/-- Both INITs of a legal pair select one engine and the padding mode. -/
theorem initCheck_of_legal {o : InitOps} {padm : PadMode} {s s' : State}
    (h : (RabbitInitLegal o padm s ∧ RabbitInitLegal o padm s') ∨ (Rc4InitLegal o padm s ∧ Rc4InitLegal o padm s')) :
    ∃ eng, initCheck o s = .ok (eng, padm) ∧ initCheck o s' = .ok (eng, padm) := by
  obtain ⟨h, h'⟩ | ⟨h, h'⟩ := h
  · exact ⟨_, initCheck_of_rabbitInitLegal h, initCheck_of_rabbitInitLegal h'⟩
  · exact ⟨_, initCheck_of_rc4InitLegal h, initCheck_of_rc4InitLegal h'⟩

/-- R201, R202, R204: with the same legal operands INIT_ENC and INIT_DEC succeed, and start from the same engine. -/
theorem succeeds_inits {o : InitOps} {padm : PadMode} {s s' : State}
    (h : (RabbitInitLegal o padm s ∧ RabbitInitLegal o padm s') ∨ (Rc4InitLegal o padm s ∧ Rc4InitLegal o padm s')) :
    ∃ t t', Succeeds [.initEnc o] s t [] ∧ Succeeds [.initDec o] s' t' [] ∧
      t.Starts .encrypt padm (if o.bsz = 0 then 16 else o.bsz.toNat) ∧
      t'.Starts .decrypt padm (if o.bsz = 0 then 16 else o.bsz.toNat) ∧ SameEngine t t' := by
  obtain ⟨eng, hc, hc'⟩ := initCheck_of_legal h
  exact ⟨_, _, succeeds_init (execInitEnc_eq o s) hc, succeeds_init (execInitDec_eq o s') hc',
    initCommon_starts hc _, initCommon_starts hc' _, initCommon_sameEngine ..⟩

theorem length_streamCommands (chunks : List Bytes) (tail : Bytes) :
    (streamCommands chunks tail).length = chunks.length + 1 := by simp [streamCommands, blockCommands]

/-- An INIT and the commands of a stream. -/
theorem Succeeds.stream {i : Instr} {s t u : State} {chunks : List Bytes} {tail out : Bytes}
    (h : Succeeds [i] s t []) (h' : Succeeds (streamCommands chunks tail) t u out) :
    execAll (i :: streamCommands chunks tail) s = .next u ∧ AllSucceed (chunks.length + 2) s u ∧
      newOutput s u = out := by
  have hall : Succeeds (i :: streamCommands chunks tail) s u out := h.append h'
  have hcount := hall.allSucceed
  rw [List.length_cons, length_streamCommands] at hcount
  exact ⟨hall.run, hcount, hall.newOutput_eq⟩

end Sys2Proof.Machine

open Sys2Proof Sys2Proof.Machine

/-- Settles O59: the encryption outputs the padded plaintext, XORed (`succeeds_encryption`); the decryption starts from
the same engine, so that XORing again gives the padded plaintext back (`xorKs_xorKs`), and unpadding that gives the
plaintext (`unpad_pad`). -/
theorem decryptInvertsEncrypt : Obligations.DecryptInvertsEncrypt := by
  intro o padm s s' chunks chunks' tail tail' hlegal B P hchunks hchunks' hlen hzeros
  obtain ⟨s₁, s₁', hinit, hinit', hstart, hstart', hengine⟩ := succeeds_inits hlegal
  obtain ⟨hready, hdir, hpadm, (hbs : s₁.bs.toNat = B), -⟩ := hstart
  obtain ⟨hready', hdir', hpadm', (hbs' : s₁'.bs.toNat = B), hheld'⟩ := hstart'
  have hB : 1 ≤ B ∧ B ≤ 32 := hbs ▸ hready.bs_bounds
  obtain ⟨t, u, henc⟩ := succeeds_encryption hready hdir (by rwa [hbs]) (show P.length < 2 ^ 32 by omega)
  rw [hpadm, hbs, show chunks.flatten ++ tail = P from rfl] at henc
  obtain ⟨hrun, hall, hout⟩ := hinit.stream henc
  refine ⟨t, hrun, hall, fun hC => ?_⟩
  rw [hout] at hC
  have hClen : (chunks'.flatten ++ tail').length < 2 ^ 32 := by
    have := pad_length_le padm P B u
    rw [hC, xorKs_length]
    omega
  have hplain : unpad s₁'.padm (xorKs (chunks'.flatten ++ tail') s₁').1 s₁'.bs.toNat = .ok P := by
    rw [hC, hengine.xorKs_bytes_eq, xorKs_xorKs, hpadm', hbs']
    exact unpad_pad hB.1 hB.2 u hzeros
  obtain ⟨t', hdec⟩ := succeeds_decryption hready' hdir' hheld' (by rwa [hbs']) hClen hplain
  exact ⟨t', hinit'.stream hdec⟩

end

section
/-! The Rabbit counters (R104): each lane's sum splits exactly into its new word and its carry, so that a lane moves the
256-bit number of the counters by its constant and its carry in, less the carry it passes on. -/

namespace Sys2Proof.Machine

/-! ### One lane -/

/-- R104: 33 bits hold the lane's sum exactly. -/
theorem laneSum_toNat (c a : Word) (carry : Bool) :
    (laneSum c a carry).toNat = c.toNat + a.toNat + carry.toNat := by
  have hcarry := carry.toNat_le
  simp only [laneSum, BitVec.toNat_add, BitVec.toNat_setWidth, BitVec.toNat_ofBool]
  omega

/-- R104: the lane's new word is its sum mod 2^32. -/
theorem laneWord_toNat (t : BitVec 33) : (laneWord t).toNat = t.toNat % 2 ^ 32 := by
  simp [laneWord]

/-- R104: bit 32 is what the new word leaves out of the sum. -/
theorem laneCarry_toNat (t : BitVec 33) : (laneCarry t).toNat = t.toNat / 2 ^ 32 := by
  rw [laneCarry, BitVec.getLsbD, Nat.toNat_testBit]
  omega

theorem laneCarry_eq_decide (t : BitVec 33) : laneCarry t = decide (2 ^ 32 ≤ t.toNat) := by
  have hbit := laneCarry_toNat t
  cases h : laneCarry t <;> rw [h] at hbit
  · exact (decide_eq_false fun hle => by rw [Bool.toNat_false] at hbit; omega).symm
  · exact (decide_eq_true (by rw [Bool.toNat_true] at hbit; omega)).symm

/-- R104 (2): with a constant that is not zero, a lane carries exactly when its counter wraps to at most the old one. -/
theorem laneCarry_eq_decide_le {a : Word} (ha : a ≠ 0) (c : Word) (carry : Bool) :
    laneCarry (laneSum c a carry) = decide (laneWord (laneSum c a carry) ≤ c) := by
  have hsum := laneSum_toNat c a carry
  have hpos : a.toNat ≠ 0 := fun h => ha (BitVec.eq_of_toNat_eq h)
  have hin := carry.toNat_le
  refine (laneCarry_eq_decide _).trans (decide_eq_decide.mpr ?_)
  rw [BitVec.le_def, laneWord_toNat]
  omega

/-- R100: no counter constant is zero. -/
theorem rabbitA_ne_zero (j : Fin 8) : rabbitA[j] ≠ 0 := by
  revert j
  decide

/-! ### The eight lanes as one number -/

theorem wideValue_eq_sum (v : Vector Word 8) : wideValue v = ∑ j : Fin 8, 2 ^ (32 * j.val) * v[j].toNat := by
  simp [wideValue, Fin.sum_univ_eight]

/-- Writing word `j` replaces the digit of weight `2 ^ (32 * j)`. -/
theorem wideValue_set (v : Vector Word 8) (j : Fin 8) (w : Word) :
    wideValue (v.set j w) + 2 ^ (32 * j.val) * v[j].toNat = wideValue v + 2 ^ (32 * j.val) * w.toNat := by
  fin_cases j <;> simp [wideValue] <;> omega

/-- R104: one lane adds its constant and its carry in at its own weight, and its carry out stands at the next weight. -/
theorem counterLane_wideValue (r : Rabbit) (j : Fin 8) {n : Nat}
    (h : wideValue r.c + 2 ^ (32 * j.val) * r.carry.toNat = n) :
    wideValue (r.counterLane j).c + 2 ^ (32 * (j.val + 1)) * (r.counterLane j).carry.toNat =
      n + 2 ^ (32 * j.val) * rabbitA[j].toNat := by
  let t := laneSum r.c[j] rabbitA[j] r.carry
  have hlane : r.counterLane j = { r with carry := laneCarry t, c := r.c.set j (laneWord t) } := by
    simp only [Rabbit.counterLane, r.a.fixed, t]
  have hdigit : (laneWord t).toNat + 2 ^ 32 * (laneCarry t).toNat =
      r.c[j].toNat + rabbitA[j].toNat + r.carry.toNat := by
    rw [laneWord_toNat, laneCarry_toNat, Nat.mod_add_div, laneSum_toNat]
  have hset := wideValue_set r.c j (laneWord t)
  have hweighted := congrArg (2 ^ (32 * j.val) * ·) hdigit
  rw [hlane, Nat.mul_succ, Nat.pow_add]
  dsimp only at hweighted ⊢
  linarith

/-- R104: CounterUpdate chains the lanes, each carry out being the next carry in. -/
theorem counterUpdate_wideValue (r : Rabbit) :
    wideValue r.counterUpdate.c + 2 ^ 256 * r.counterUpdate.carry.toNat =
      wideValue r.c + wideValue rabbitA + r.carry.toNat := by
  have hstart : wideValue r.c + 2 ^ (32 * (0 : Fin 8).val) * r.carry.toNat = wideValue r.c + r.carry.toNat := by
    simp
  have hlanes := counterLane_wideValue _ 7 <| counterLane_wideValue _ 6 <| counterLane_wideValue _ 5 <|
    counterLane_wideValue _ 4 <| counterLane_wideValue _ 3 <| counterLane_wideValue _ 2 <|
    counterLane_wideValue _ 1 <| counterLane_wideValue r 0 hstart
  refine Eq.trans hlanes ?_
  rw [wideValue_eq_sum rabbitA, Fin.sum_univ_eight]
  ring

end Sys2Proof.Machine

open Sys2Proof Sys2Proof.Machine

/-- Settles O25: the lanes chained (`counterUpdate_wideValue`). -/
theorem counterUpdateIsWideAddition : Obligations.CounterUpdateIsWideAddition := fun r =>
  ⟨counterUpdate_wideValue r, counterUpdate_x r, r.counterUpdate.a.fixed⟩

/-- Settles O26: no constant of R100 is zero, which is what the two tests need to agree. -/
theorem carryTestsAgree : Obligations.CarryTestsAgree := fun c j carry =>
  laneCarry_eq_decide_le (rabbitA_ne_zero j) c carry

end

section
/-! Rabbit's next-state function and its output (R105, R106, R108). -/

namespace Sys2Proof.Machine

/-! ### g and the recombination -/

/-- R105: the square of a 32-bit word fits in 64 bits. -/
theorem square_toNat (t : Word) : (t.setWidth 64 * t.setWidth 64).toNat = t.toNat * t.toNat := by
  have hlt : t.toNat * t.toNat < 2 ^ 64 := by simpa using Nat.mul_lt_mul'' t.isLt t.isLt
  rw [BitVec.toNat_mul, BitVec.toNat_setWidth_of_le (by decide), Nat.mod_eq_of_lt hlt]

/-- R105: `g` in exact arithmetic. -/
theorem rabbitG_toNat (u v : Word) :
    (rabbitG u v).toNat =
      ((u + v).toNat * (u + v).toNat % 2 ^ 32) ^^^ ((u + v).toNat * (u + v).toNat / 2 ^ 32) := by
  have hlt : (u + v).toNat * (u + v).toNat / 2 ^ 32 < 2 ^ 32 :=
    Nat.div_lt_of_lt_mul (Nat.mul_lt_mul'' (u + v).isLt (u + v).isLt)
  rw [rabbitG, BitVec.toNat_xor, BitVec.extractLsb'_toNat, BitVec.extractLsb'_toNat, square_toNat, Nat.shiftRight_zero,
    Nat.shiftRight_eq_div_pow, Nat.mod_eq_of_lt hlt]

/-- R10: the model's rotation is core Lean's. -/
theorem rotl_eq_rotateLeft (x : Word) {n : Nat} (hn : n < 32) : rotl x n = x.rotateLeft n := by
  rw [BitVec.rotateLeft_def, Nat.mod_eq_of_lt hn]

/-- R106: the formula of an even lane. -/
theorem nextState_x_even (r : Rabbit) {j : Fin 8} (hj : j.val % 2 = 0) :
    r.nextState.x[j] = rabbitG r.x[j] r.c[j] + (rabbitG r.x[j + 7] r.c[j + 7]).rotateLeft 16 +
      (rabbitG r.x[j + 6] r.c[j + 6]).rotateLeft 16 := by
  rw [nextState_x_getElem, recombine, if_pos hj, gWords_getElem, gWords_getElem, gWords_getElem,
    rotl_eq_rotateLeft _ (by decide), rotl_eq_rotateLeft _ (by decide)]

/-- R106: the formula of an odd lane. -/
theorem nextState_x_odd (r : Rabbit) {j : Fin 8} (hj : j.val % 2 ≠ 0) :
    r.nextState.x[j] = rabbitG r.x[j] r.c[j] + (rabbitG r.x[j + 7] r.c[j + 7]).rotateLeft 8 +
      rabbitG r.x[j + 6] r.c[j + 6] := by
  rw [nextState_x_getElem, recombine, if_neg hj, gWords_getElem, gWords_getElem, gWords_getElem,
    rotl_eq_rotateLeft _ (by decide)]

/-! ### The output bytes -/

/-- R53, R54: byte `b` of a word is its bits `[8b+7 : 8b]`. -/
theorem wordBytes_getD_toNat (w : Word) (b : Fin 4) :
    ((wordBytes w).getD b.val 0).toNat = w.toNat / 2 ^ (8 * b.val) % 2 ^ 8 := by
  fin_cases b <;> simp [wordBytes, Nat.shiftRight_eq_div_pow]

/-- Words packed into bytes: byte `4w + b` is byte `b` of word `w`. -/
theorem flatMap_wordBytes_getD (S : List Word) (w : Nat) (b : Fin 4) :
    (S.flatMap wordBytes).getD (4 * w + b.val) 0 = (wordBytes (S.getD w 0)).getD b.val 0 := by
  induction S generalizing w with
  | nil =>
    have hzero : (wordBytes 0).getD b.val 0 = 0 := by fin_cases b <;> rfl
    exact hzero.symm
  | cons x S ih =>
    cases w with
    | zero =>
      rw [List.flatMap_cons, Nat.mul_zero, Nat.zero_add, List.getD_append _ _ _ _ b.isLt, List.getD_cons_zero]
    | succ w =>
      have hskip : 4 * (w + 1) + b.val - (wordBytes x).length = 4 * w + b.val := by rw [wordBytes_length]; omega
      rw [List.flatMap_cons, List.getD_append_right _ _ _ _ (by rw [wordBytes_length]; omega), hskip, ih,
        List.getD_cons_succ]

end Sys2Proof.Machine

open Sys2Proof Sys2Proof.Machine

/-- Settles O27: the square is exact in 64 bits (`square_toNat`). -/
theorem squaringFeedback : Obligations.SquaringFeedback := by
  intro u v t
  rw [rabbitG_toNat, BitVec.toNat_add]

/-- Settles O28: each lane is even or odd. -/
theorem nextStateFormulas : Obligations.NextStateFormulas := by
  refine fun r => ⟨Vector.ext fun i hi => ?_, nextState_c r, nextState_carry r⟩
  obtain ⟨j, rfl⟩ : ∃ j : Fin 8, j.val = i := ⟨⟨i, hi⟩, rfl⟩
  match j with
  | 0 | 2 | 4 | 6 => exact nextState_x_even r rfl
  | 1 | 3 | 5 | 7 => exact nextState_x_odd r (by decide)

/-- Settles O29: the output words packed (`flatMap_wordBytes_getD`), byte by byte. -/
theorem outputBytesOfWords : Obligations.OutputBytesOfWords := by
  intro r w b S
  have hword : r.outputWords.getD w.val 0 = S[w] := by fin_cases w <;> rfl
  refine ⟨extractOutput_length r, ?_⟩
  rw [Rabbit.extractOutput, flatMap_wordBytes_getD, wordBytes_getD_toNat, hword]

end

section
/-! Rabbit's key and IV setup (R110 to R113), with words in the two forms the rules use: four bytes, and two 16-bit
halves. -/

namespace Sys2Proof.Machine

/-! ### Words by bytes -/

/-- R53, R110, R113: four bytes of a sequence, the last one most significant. -/
theorem leWord_eq_append (D : Bytes) (i : Nat) :
    leWord D i = D.getD (4 * i + 3) 0 ++ D.getD (4 * i + 2) 0 ++ D.getD (4 * i + 1) 0 ++ D.getD (4 * i) 0 := by
  have hjoin (b3 b2 b1 b0 : Byte) : b3 ++ b2 ++ b1 ++ b0 =
      b3.setWidth 32 <<< 24 ||| b2.setWidth 32 <<< 16 ||| b1.setWidth 32 <<< 8 ||| b0.setWidth 32 :=
    (BitVec.setWidth_eq _).symm.trans BitVec.setWidth_append_append_append_eq_shiftLeft_setWidth_or
  have hreverse (w0 w1 w2 w3 : Word) : w0 ||| w1 ||| w2 ||| w3 = w3 ||| w2 ||| w1 ||| w0 := by ac_rfl
  rw [hjoin, leWord, hreverse]

/-- R53, R110, R113: byte `b` of word `i` is byte `4i + b` of the sequence. -/
theorem leWord_byte (D : Bytes) (i : Nat) (b : Fin 4) :
    (leWord D i).extractLsb' (8 * b.val) 8 = D.getD (4 * i + b.val) 0 := by
  rw [leWord_eq_append]
  fin_cases b
  · exact BitVec.extractLsb'_append_eq_right
  · exact extractLsb'_append_high (start := 0) BitVec.extractLsb'_append_eq_right
  · exact extractLsb'_append_high (start := 8) <|
      extractLsb'_append_high (start := 0) BitVec.extractLsb'_append_eq_right
  · exact extractLsb'_append_high (start := 16) <|
      extractLsb'_append_high (start := 8) BitVec.extractLsb'_append_eq_left

theorem leWord_zeros (n i : Nat) : leWord (zeros n) i = 0 := by
  have hbyte (k : Nat) : (zeros n).getD k 0 = 0 := by
    rw [List.getD_eq_getElem?_getD, List.getElem?_replicate]
    split <;> rfl
  simp only [leWord_eq_append, hbyte]
  rfl

/-! ### Words by halves

Each shift, mask and rotation that the setup rules use moves or clears whole 16-bit halves. -/

theorem word_eq_halves (w : Word) : w.extractLsb' 16 16 ++ w.extractLsb' 0 16 = w :=
  (BitVec.extractLsb'_append_extractLsb'_eq_extractLsb' (by rfl)).trans BitVec.extractLsb'_eq_self

theorem shiftLeft_halves (w : Word) : w <<< 16 = w.extractLsb' 0 16 ++ 0#16 :=
  BitVec.shiftLeft_eq_concat_of_lt (by decide)

theorem ushiftRight_halves (w : Word) : w >>> 16 = 0#16 ++ w.extractLsb' 16 16 :=
  BitVec.ushiftRight_eq_extractLsb'_of_lt (by decide)

theorem highMask_halves (w : Word) : w &&& 0xFFFF0000 = w.extractLsb' 16 16 ++ 0#16 := by
  have hmask : (0xFFFF0000 : Word) = BitVec.allOnes 16 ++ 0#16 := by decide
  conv_lhs => rw [← word_eq_halves w, hmask, BitVec.and_append, BitVec.and_allOnes, BitVec.and_zero]

theorem lowMask_halves (w : Word) : w &&& 0x0000FFFF = 0#16 ++ w.extractLsb' 0 16 := by
  have hmask : (0x0000FFFF : Word) = 0#16 ++ BitVec.allOnes 16 := by decide
  conv_lhs => rw [← word_eq_halves w, hmask, BitVec.and_append, BitVec.and_allOnes, BitVec.and_zero]

theorem or_halves (hi lo : BitVec 16) : (hi ++ 0#16) ||| (0#16 ++ lo) = hi ++ lo := by
  rw [BitVec.or_append, BitVec.or_zero, BitVec.zero_or]

theorem rotl_halves (w : Word) : rotl w 16 = w.extractLsb' 0 16 ++ w.extractLsb' 16 16 := by
  rw [rotl, shiftLeft_halves, ushiftRight_halves, or_halves]

/-! ### InitialLoad -/

/-- The subkey `K^i` of R111: the low half of key word `i div 2` for an even `i`, its high half for an odd one. -/
def subkey (k : Vector Word 4) (i : Fin 8) : BitVec 16 := k[halfIndex i].extractLsb' (16 * (i.val % 2)) 16

theorem subkey_of_index (k : Vector Word 4) {i : Fin 8} {h : Fin 4} {parity : Nat}
    (hi : halfIndex i = h ∧ i.val % 2 = parity) : subkey k i = k[h].extractLsb' (16 * parity) 16 := by
  obtain ⟨rfl, rfl⟩ := hi
  rfl

/-- R111: the subkeys that an even lane reads. -/
theorem subkeys_even (k : Vector Word 4) {j : Fin 8} (hj : j.val % 2 = 0) :
    subkey k j = k[halfIndex j].extractLsb' 0 16 ∧ subkey k (j + 1) = k[halfIndex j].extractLsb' 16 16 ∧
      subkey k (j + 4) = k[halfIndex j + 2].extractLsb' 0 16 ∧
      subkey k (j + 5) = k[halfIndex j + 2].extractLsb' 16 16 := by
  have hindex : ∀ j : Fin 8, j.val % 2 = 0 → (halfIndex (j + 1) = halfIndex j ∧ (j + 1).val % 2 = 1) ∧
      (halfIndex (j + 4) = halfIndex j + 2 ∧ (j + 4).val % 2 = 0) ∧
      (halfIndex (j + 5) = halfIndex j + 2 ∧ (j + 5).val % 2 = 1) := by decide
  obtain ⟨h1, h4, h5⟩ := hindex j hj
  exact ⟨subkey_of_index k ⟨rfl, hj⟩, subkey_of_index k h1, subkey_of_index k h4, subkey_of_index k h5⟩

/-- R111: the subkeys that an odd lane reads. -/
theorem subkeys_odd (k : Vector Word 4) {j : Fin 8} (hj : j.val % 2 = 1) :
    subkey k j = k[halfIndex j].extractLsb' 16 16 ∧ subkey k (j + 1) = k[halfIndex j + 1].extractLsb' 0 16 ∧
      subkey k (j + 4) = k[halfIndex j + 2].extractLsb' 16 16 ∧
      subkey k (j + 5) = k[halfIndex j + 3].extractLsb' 0 16 := by
  have hindex : ∀ j : Fin 8, j.val % 2 = 1 → (halfIndex (j + 1) = halfIndex j + 1 ∧ (j + 1).val % 2 = 0) ∧
      (halfIndex (j + 4) = halfIndex j + 2 ∧ (j + 4).val % 2 = 1) ∧
      (halfIndex (j + 5) = halfIndex j + 3 ∧ (j + 5).val % 2 = 0) := by decide
  obtain ⟨h1, h4, h5⟩ := hindex j hj
  exact ⟨subkey_of_index k ⟨rfl, hj⟩, subkey_of_index k h1, subkey_of_index k h4, subkey_of_index k h5⟩

theorem loadX_eq_subkeys (k : Vector Word 4) (j : Fin 8) :
    loadX k j = if j.val % 2 = 0 then subkey k (j + 1) ++ subkey k j else subkey k (j + 5) ++ subkey k (j + 4) := by
  dsimp only [loadX]
  split_ifs with hj
  · obtain ⟨h0, h1, -, -⟩ := subkeys_even k hj
    rw [h0, h1, word_eq_halves]
  · obtain ⟨-, -, h4, h5⟩ := subkeys_odd k (Nat.mod_two_ne_zero.mp hj)
    rw [h4, h5, shiftLeft_halves, ushiftRight_halves, or_halves]

theorem loadC_eq_subkeys (k : Vector Word 4) (j : Fin 8) :
    loadC k j = if j.val % 2 = 0 then subkey k (j + 4) ++ subkey k (j + 5) else subkey k j ++ subkey k (j + 1) := by
  dsimp only [loadC]
  split_ifs with hj
  · obtain ⟨-, -, h4, h5⟩ := subkeys_even k hj
    rw [h4, h5, rotl_halves]
  · obtain ⟨h0, h1, -, -⟩ := subkeys_odd k (Nat.mod_two_ne_zero.mp hj)
    rw [h0, h1, highMask_halves, lowMask_halves, or_halves]

theorem initialLoad_x_getElem (k : Vector Word 4) (r : Rabbit) (j : Fin 8) : (r.initialLoad k).x[j] = loadX k j := by
  simp [Rabbit.initialLoad]

theorem initialLoad_c_getElem (k : Vector Word 4) (r : Rabbit) (j : Fin 8) : (r.initialLoad k).c[j] = loadC k j := by
  simp [Rabbit.initialLoad]

/-! ### KeySetup and IvSetup -/

theorem iterates_four (r : Rabbit) : Rabbit.iterates 4 r = r.iterate.iterate.iterate.iterate := rfl

@[simp] theorem reXor_x (r : Rabbit) : r.reXor.x = r.x := rfl
@[simp] theorem reXor_carry (r : Rabbit) : r.reXor.carry = r.carry := rfl

theorem reXor_c_getElem (r : Rabbit) (j : Fin 8) : r.reXor.c[j] = r.c[j] ^^^ r.x[j + 4] := by
  simp [Rabbit.reXor]

/-- R112: KeySetup overwrites every register it starts from. -/
theorem keySetup_eq_of_reset (key : Bytes) (r : Rabbit) :
    r.keySetup key =
      (({ Rabbit.reset.initialLoad (keyWords key) with carry := false } : Rabbit).iterates 4).reXor := by
  simp only [Rabbit.keySetup, Rabbit.initialLoad, counterConstants_eq r.a Rabbit.reset.a]

/-- R113: the expanded IV by 16-bit halves. -/
theorem ivWords_eq_halves (iv : Bytes) :
    ivWords iv =
      #v[leWord iv 0, (leWord iv 1).extractLsb' 16 16 ++ (leWord iv 0).extractLsb' 16 16, leWord iv 1,
         (leWord iv 1).extractLsb' 0 16 ++ (leWord iv 0).extractLsb' 0 16] := by
  have hhigh (i0 i2 : Word) : (i0 >>> 16) ||| (i2 &&& 0xFFFF0000) = i2.extractLsb' 16 16 ++ i0.extractLsb' 16 16 := by
    rw [ushiftRight_halves, highMask_halves, BitVec.or_comm, or_halves]
  have hlow (i0 i2 : Word) : (i2 <<< 16) ||| (i0 &&& 0x0000FFFF) = i2.extractLsb' 0 16 ++ i0.extractLsb' 0 16 := by
    rw [shiftLeft_halves, lowMask_halves, or_halves]
  simp only [ivWords, hhigh, hlow]

theorem ivWords_zeros (n : Nat) : ivWords (zeros n) = Vector.replicate 4 0 := by
  simp only [ivWords, leWord_zeros]
  rfl

/-- R113: an all-zero IV leaves the counters as they are. -/
theorem xorIv_zeros (n : Nat) (r : Rabbit) : r.xorIv (zeros n) = r := by
  simp [Rabbit.xorIv, ivWords_zeros]

end Sys2Proof.Machine

open Sys2Proof Sys2Proof.Machine

/-- Settles O30: key word `i` is the four bytes from `4i` on (`leWord_byte`). -/
theorem keyWordsAreLittleEndian : Obligations.KeyWordsAreLittleEndian := by
  intro key i b
  have hword : (keyWords key)[i] = leWord key i.val := by simp [keyWords]
  rw [hword, ← leWord_byte, BitVec.extractLsb'_toNat, Nat.shiftRight_eq_div_pow]

/-- Settles O31: both loads are joined subkeys (`loadX_eq_subkeys`, `loadC_eq_subkeys`). -/
theorem initialLoadBySubkeys : Obligations.InitialLoadBySubkeys := fun k r j =>
  ⟨(initialLoad_x_getElem k r j).trans (loadX_eq_subkeys k j),
    (initialLoad_c_getElem k r j).trans (loadC_eq_subkeys k j), rfl⟩

/-- Settles O32: KeySetup starts as from reset (`keySetup_eq_of_reset`), and the expanded IV is joined halves
(`ivWords_eq_halves`). -/
theorem setupRegisters : Obligations.SetupRegisters := by
  intro key iv r i0 i2 iv32 four
  have hkey : r.keySetup key = four.reXor := by rw [keySetup_eq_of_reset, iterates_four]
  have hiv : ivWords iv = iv32 := ivWords_eq_halves iv
  rw [hkey]
  refine ⟨reXor_x four, reXor_carry four, reXor_c_getElem four, ?_, ?_⟩
  · rw [Rabbit.ivSetup, iterates_four, Rabbit.xorIv, hiv]
  · rw [Rabbit.ivSetup, iterates_four, xorIv_zeros]

end

section
/-! The Rabbit keystream byte by byte (R109, R115, R116). -/

namespace Sys2Proof.Machine

/-- R109, R115: byte `p` of a run of blocks is byte `p mod 16` of block `p div 16`. -/
theorem blocks_getD {n p : Nat} (hp : p < 16 * n) (r : Rabbit) :
    (Rabbit.blocks n r).1.getD p 0 = (Rabbit.iterates (p / 16) r).nextBlock.1.getD (p % 16) 0 := by
  induction n generalizing p r with
  | zero => omega
  | succ n ih =>
    rw [blocks_succ]
    obtain hfirst | ⟨q, rfl⟩ : p < 16 ∨ ∃ q, p = q + 16 := by
      rcases Nat.lt_or_ge p 16 with h | h
      · exact .inl h
      · exact .inr ⟨p - 16, by omega⟩
    · rw [List.getD_append _ _ _ _ (by simpa using hfirst), Nat.div_eq_of_lt hfirst, Nat.mod_eq_of_lt hfirst,
        iterates_zero]
    · rw [List.getD_append_right _ _ _ _ (by simp), nextBlock_length, Nat.add_sub_cancel, ih (by omega),
        Nat.add_div_right _ (by decide), Nat.add_mod_right, iterates_succ]

/-- R115: so it is of a draw. -/
theorem rabbit_draw_getD {n p : Nat} (hp : p < n) (r : Rabbit) :
    (r.draw n).1.getD p 0 = (Rabbit.iterates (p / 16) r).nextBlock.1.getD (p % 16) 0 := by
  have hblocks : p < 16 * blocksFor n := by unfold blocksFor; omega
  rw [← blocks_getD hblocks, draw_bytes, List.getD_eq_getElem?_getD, List.getD_eq_getElem?_getD,
    List.getElem?_take_of_lt hp]

end Sys2Proof.Machine

open Sys2Proof Sys2Proof.Machine

/-- Settles O33: aligned draws join (`rabbit_draw_add`), and a draw is read byte by byte (`rabbit_draw_getD`). -/
theorem rabbitDrawsAreConsecutive : Obligations.RabbitDrawsAreConsecutive := fun _ n r =>
  ⟨fun hm => rabbit_draw_add (Nat.dvd_of_mod_eq_zero hm) n r, rabbit_draw_length n r, draw_state n r,
    fun _ hp => rabbit_draw_getD hp r⟩

end

section
/-! The RC4 schedule's reading of the key material, one PRGA call entry by entry, and the cursor of a draw (R131, R132,
R133, R134). -/

namespace Sys2Proof.Machine

/-! ### Key scheduling -/

/-- R131: when the key material has at least 256 bytes, the schedule's index never wraps around it. -/
theorem scheduleByte_eq_take {K : Bytes} (hK : 256 ≤ K.length) {i : Nat} (hi : i < 256) :
    K.getD (i % K.length) 0 = (K.take 256).getD i 0 := by
  rw [Nat.mod_eq_of_lt (hi.trans_le hK), List.getD_eq_getElem?_getD, List.getD_eq_getElem?_getD,
    List.getElem?_take_of_lt hi]

/-- R131: a step of the schedule reads one byte of the key material. -/
theorem ksaStep_congr {K K' : Bytes} {i : Nat} (h : K.getD (i % K.length) 0 = K'.getD (i % K'.length) 0)
    (p : Vector Byte 256 × Byte) : Rc4.ksaStep K p i = Rc4.ksaStep K' p i := by
  simp only [Rc4.ksaStep, h]

/-- R131: the schedule reads the key material at the indices below 256 alone. -/
theorem ksa_congr {K K' : Bytes} (h : ∀ i < 256, K.getD (i % K.length) 0 = K'.getD (i % K'.length) 0) :
    Rc4.ksa K = Rc4.ksa K' := by
  have hfold : (List.range 256).foldl (Rc4.ksaStep K) (Rc4.identity, 0) =
      (List.range 256).foldl (Rc4.ksaStep K') (Rc4.identity, 0) :=
    List.foldl_ext _ _ _ fun p i hi => ksaStep_congr (h i (List.mem_range.mp hi)) p
  rw [Rc4.ksa, Rc4.ksa, hfold]

/-! ### One PRGA call -/

/-- R132: the entry at the first index of a swap, the case of equal indices included. -/
theorem entry_swap_left (S : Vector Byte 256) (i j : Byte) : Rc4.entry (Rc4.swap S i j) i = Rc4.entry S j := by
  rw [entry_swap, if_pos rfl]

/-- R132: the entry at the second. -/
theorem entry_swap_right (S : Vector Byte 256) (i j : Byte) : Rc4.entry (Rc4.swap S i j) j = Rc4.entry S i := by
  rw [entry_swap, if_pos rfl]
  split_ifs with h
  · rw [h]
  · rfl

theorem prga_j (r : Rc4) : r.prga.2.j = r.j + Rc4.entry r.s (r.i + 1) := rfl

/-- R132: the two swapped entries have the sum they had before the swap. -/
theorem prga_byte (r : Rc4) :
    r.prga.1 = Rc4.entry r.prga.2.s (Rc4.entry r.s r.prga.2.i + Rc4.entry r.s r.prga.2.j) := by
  have hbyte : r.prga.1 =
      Rc4.entry r.prga.2.s (Rc4.entry r.prga.2.s r.prga.2.i + Rc4.entry r.prga.2.s r.prga.2.j) := rfl
  have hswap : r.prga.2.s = Rc4.swap r.s r.prga.2.i r.prga.2.j := rfl
  have hsum : Rc4.entry r.prga.2.s r.prga.2.i + Rc4.entry r.prga.2.s r.prga.2.j =
      Rc4.entry r.s r.prga.2.i + Rc4.entry r.s r.prga.2.j := by
    rw [hswap, entry_swap_left, entry_swap_right, BitVec.add_comm]
  rw [hbyte, hsum]

/-! ### The cursor of a draw -/

/-- R134: the cursor I counts the bytes drawn, mod 256. -/
theorem rc4_draw_i (n : Nat) (r : Rc4) : (r.draw n).2.i = r.i + BitVec.ofNat 8 n := by
  induction n generalizing r with
  | zero => rw [rc4_draw_zero, BitVec.add_zero]
  | succ n ih =>
    have hcount : BitVec.ofNat 8 (1 + n) = 1 + BitVec.ofNat 8 n := BitVec.ofNat_add 1 n
    rw [rc4_draw_succ, ih, prga_i, BitVec.add_assoc, Nat.add_comm n 1, hcount]

end Sys2Proof.Machine

open Sys2Proof Sys2Proof.Machine

/-- Settles O22: the schedule reads no index past 255 (`ksa_congr`), and below 256 the two materials agree. -/
theorem ksaReadsFirst256Bytes : Obligations.KsaReadsFirst256Bytes := by
  intro K K' hK hK' htake
  refine ksa_congr fun i hi => ?_
  rw [scheduleByte_eq_take hK hi, scheduleByte_eq_take hK' hi, htake]

/-- Settles O23: the table is the old one with two entries swapped (`prga_s`), and the byte's index is the sum of the
two (`prga_byte`). -/
theorem prgaStep : Obligations.PrgaStep := by
  intro r i j
  refine ⟨prga_i r, prga_j r, fun k => ?_, prga_byte r⟩
  rw [prga_s]
  exact Vector.getElem_swap ..

/-- Settles O24: draws join (`rc4_draw_add`), and each PRGA call moves the cursor by one (`rc4_draw_i`). -/
theorem rc4DrawsAreConsecutive : Obligations.Rc4DrawsAreConsecutive := fun m n r =>
  ⟨rc4_draw_add m n r, rc4_draw_length n r, rc4_draw_i n r⟩

end

section
/-! The padded lengths (R156), unpadding byte by byte (R157 to R163), and which corruptions PKCS7 accepts (R167). -/

namespace Sys2Proof.Machine

/-! ### The padded lengths -/

/-- R152, R154, R155: the count modes add the pad count. -/
theorem pad_count_length {mode : PadMode} (h : mode = .pkcs7 ∨ mode = .ansix923 ∨ mode = .iso10126) (P : Bytes)
    {B : Nat} (hB : 1 ≤ B) (s : State) : (pad mode P B s).1.length = P.length + padCount B P.length := by
  obtain ⟨fill, hpad, hfill, -, -⟩ := pad_countPadded h P hB s
  simp [hpad, ← hfill, countPadded]

/-- R153: Zeros rounds the length up to whole blocks. -/
theorem pad_zeros_length (P : Bytes) {B : Nat} (hB : 1 ≤ B) (s : State) :
    (pad .zeros P B s).1.length = (P.length + B - 1) / B * B := by
  obtain ⟨k, hk, hpad, hmod⟩ := padZeros_eq P hB
  obtain ⟨q, hq⟩ := Nat.dvd_of_mod_eq_zero hmod
  have hround : P.length + B - 1 = B - 1 - k + B * q := by omega
  rw [hround, Nat.add_mul_div_left _ _ hB, Nat.div_eq_of_lt (by omega), Nat.zero_add, Nat.mul_comm, ← hq]
  simp [pad, hpad]

/-! ### The bytes of a tail by their positions -/

theorem padByte_eq_getD (D : Bytes) : padByte D = (D.getD (D.length - 1) 0).toNat := by
  rw [padByte, List.getLastD_eq_getLast?, List.getLast?_eq_getElem?, List.getD_eq_getElem?_getD]

theorem drop_all_iff (D : Bytes) (m : Nat) (p : Byte → Bool) :
    (D.drop m).all p = true ↔ ∀ i, m ≤ i → i < D.length → p (D.getD i 0) = true := by
  rw [List.all_eq_true, List.forall_mem_iff_getElem]
  constructor
  · intro h i hm hi
    have := h (i - m) (by rw [List.length_drop]; omega)
    rwa [List.getElem_drop, getElem_congr_idx (Nat.add_sub_cancel' hm), ← List.getD_eq_getElem _ 0 hi] at this
  · intro h i hi
    rw [List.length_drop] at hi
    rw [List.getElem_drop, ← List.getD_eq_getElem _ 0 (by omega)]
    exact h (m + i) (by omega) (by omega)

theorem lastBytes_all_iff (D : Bytes) (n : Nat) (p : Byte → Bool) :
    (lastBytes D n).all p = true ↔ ∀ i, D.length - n ≤ i → i < D.length → p (D.getD i 0) = true :=
  drop_all_iff D _ p

theorem lastBytes_dropLast_all_iff (D : Bytes) (n : Nat) (p : Byte → Bool) :
    (lastBytes D n).dropLast.all p = true ↔
      ∀ i, D.length - n ≤ i → i < D.length → i ≠ D.length - 1 → p (D.getD i 0) = true := by
  rw [lastBytes, List.dropLast_drop_eq_drop_dropLast, drop_all_iff, List.length_dropLast]
  have hget (i : Nat) (hi : i < D.length - 1) : D.dropLast.getD i 0 = D.getD i 0 := by
    rw [List.getD_eq_getElem _ _ (by simpa using hi), List.getElem_dropLast, List.getD_eq_getElem]
  constructor
  · intro h i hn hi hlast
    rw [← hget i (by omega)]
    exact h i hn (by omega)
  · intro h i hn hi
    rw [hget i hi]
    exact h i hn (by omega) (by omega)

/-! ### The checks of the count modes -/

/-- R157, R160: the two checks that the count modes share, in their order. -/
theorem unpadChecks_eq (D : Bytes) (B : Nat) :
    unpadChecks D B =
      if D.length % B ≠ 0 ∨ D = [] then some .length
      else if padByte D < 1 ∨ B < padByte D then some .value else none := by
  unfold unpadChecks unpadLength
  by_cases hmod : D.length % B = 0 <;> by_cases hnil : D = [] <;> simp [hmod, hnil, unpadValue]

theorem unpad_count_error {mode : PadMode} (h : mode = .pkcs7 ∨ mode = .ansix923 ∨ mode = .iso10126) {D : Bytes}
    {B : Nat} {d : PadError} (hchecks : unpadChecks D B = some d) : unpad mode D B = .error d := by
  obtain rfl | rfl | rfl := h <;> simp only [unpad, unpadPkcs7, unpadAnsix923, unpadIso10126, hchecks]

/-- The byte at position `i` is not what the mode pads with (R161, R162); ISO10126 pads with any byte (R163). -/
def WrongFill (mode : PadMode) (D : Bytes) (i : Nat) : Prop :=
  (mode = .pkcs7 ∧ (D.getD i 0).toNat ≠ padByte D) ∨ (mode = .ansix923 ∧ i ≠ D.length - 1 ∧ D.getD i 0 ≠ 0)

/-- One of the last N bytes is wrong. -/
def HasWrongFill (mode : PadMode) (D : Bytes) : Prop :=
  ∃ i, D.length - padByte D ≤ i ∧ i < D.length ∧ WrongFill mode D i

/-- R161 to R163: what is left to check once the shared checks pass. -/
theorem unpad_count_of_checks {mode : PadMode} (h : mode = .pkcs7 ∨ mode = .ansix923 ∨ mode = .iso10126) {D : Bytes}
    {B : Nat} (hchecks : unpadChecks D B = none) [Decidable (HasWrongFill mode D)] :
    unpad mode D B = if HasWrongFill mode D then .error (if mode = .pkcs7 then .bytes else .nonzero)
      else .ok (dropTail D (padByte D)) := by
  obtain rfl | rfl | rfl := h
  · have hfill : (lastBytes D (padByte D)).all (fun b => b.toNat == padByte D) = true ↔ ¬HasWrongFill .pkcs7 D := by
      rw [lastBytes_all_iff]
      simp [HasWrongFill, WrongFill]
    simp only [unpad, unpadPkcs7, hchecks, hfill, ite_not, if_true]
  · have hfill : (lastBytes D (padByte D)).dropLast.all (fun b => b == 0) = true ↔ ¬HasWrongFill .ansix923 D := by
      rw [lastBytes_dropLast_all_iff]
      simp [HasWrongFill, WrongFill]
    simp only [unpad, unpadAnsix923, hchecks, hfill, ite_not, reduceCtorEq, if_false]
  · have hfill : ¬HasWrongFill .iso10126 D := by simp [HasWrongFill, WrongFill]
    simp only [unpad, unpadIso10126, hchecks, hfill, if_false]

/-! ### Trimming zero bytes -/

/-- R157: Zeros reads no pad byte, so the length check is its only check. -/
theorem unpad_zeros_eq (D : Bytes) (B : Nat) :
    unpad .zeros D B = if D.length % B ≠ 0 then .error .length else .ok (dropTail D (zeroTail D B)) := by
  by_cases hmod : D.length % B = 0 <;> simp [unpad, unpadZeros, unpadLength, hmod]

theorem zeroTail_le_length (D : Bytes) (B : Nat) : zeroTail D B ≤ D.length := by
  have := (List.takeWhile_prefix (p := (· == 0)) (l := D.reverse.take B)).length_le
  rw [List.length_take, List.length_reverse] at this
  exact this.trans (Nat.min_le_right _ _)

/-- R159: the count is where the scan back from the end, over at most B bytes, first meets a byte that is not zero. -/
theorem zeroTail_eq_findIdx (D : Bytes) (B : Nat) : zeroTail D B = (D.reverse.take B).findIdx (!· == 0) := by
  rw [zeroTail, List.takeWhile_eq_take_findIdx_not, List.length_take, Nat.min_eq_left List.findIdx_le_length]

theorem getD_sub_eq_reverse {D : Bytes} {B i : Nat} (hi : i < (D.reverse.take B).length) :
    D.getD (D.length - 1 - i) 0 = (D.reverse.take B)[i] := by
  have : i < D.length := by simp at hi; omega
  rw [List.getElem_take, List.getElem_reverse, List.getD_eq_getElem]

/-- R159: the bytes counted are zero. -/
theorem getD_eq_zero_of_lt_zeroTail {D : Bytes} {B i : Nat} (hi : i < zeroTail D B) :
    D.getD (D.length - 1 - i) 0 = 0 := by
  rw [zeroTail_eq_findIdx] at hi
  rw [getD_sub_eq_reverse (hi.trans_le List.findIdx_le_length)]
  simpa using List.not_of_lt_findIdx hi

/-- R159: the scan stops at the block, at the start of the tail, or at a byte that is not zero. -/
theorem zeroTail_stops (D : Bytes) (B : Nat) :
    zeroTail D B = B ∨ zeroTail D B = D.length ∨ D.getD (D.length - 1 - zeroTail D B) 0 ≠ 0 := by
  by_cases hlt : zeroTail D B < (D.reverse.take B).length
  · refine .inr (.inr ?_)
    rw [getD_sub_eq_reverse hlt]
    rw [zeroTail_eq_findIdx] at hlt
    simpa [zeroTail_eq_findIdx] using List.findIdx_getElem (w := hlt)
  · have hB := zeroTail_le D B
    have hlen := zeroTail_le_length D B
    rw [List.length_take, List.length_reverse] at hlt
    omega

/-- R166: what Zeros adds is less than a block, so a zero byte before it is trimmed too. -/
theorem getLast?_ne_zero_of_unpad_pad_zeros {P : Bytes} {B : Nat} (hB : 1 ≤ B) {s : State}
    (h : unpad .zeros (pad .zeros P B s).1 B = .ok P) (hne : P ≠ []) : P.getLast? ≠ some 0 := by
  obtain ⟨k, hk, hpad, hmod⟩ := padZeros_eq P hB
  have hlen : (P ++ zeros k).length = P.length + k := by simp
  rw [pad, hpad, unpad_zeros_eq, hlen, if_neg (not_not.mpr hmod)] at h
  have hcut : P.length + k - zeroTail (P ++ zeros k) B = P.length := by
    simpa [dropTail] using congrArg List.length (Except.ok.inj h)
  have hpos := List.length_pos_iff.mpr hne
  have hcount : zeroTail (P ++ zeros k) B = k := by
    have := zeroTail_le_length (P ++ zeros k) B
    omega
  have hstop := zeroTail_stops (P ++ zeros k) B
  rw [hcount, hlen] at hstop
  obtain hstop | hstop | hstop := hstop
  · omega
  · omega
  · have hlast : P.length + k - 1 - k = P.length - 1 := by omega
    rw [hlast, List.getD_append _ _ _ _ (by omega), List.getD_eq_getElem?_getD, ← List.getLast?_eq_getElem?] at hstop
    exact fun h0 => hstop (by rw [h0, Option.getD_some])

/-! ### PKCS7 texts with another last byte -/

theorem padByte_concat (X : Bytes) (v : Byte) : padByte (X ++ [v]) = v.toNat := by
  rw [padByte, List.getLastD_concat]

/-- R161: the bytes that PKCS7 compares with the last byte `v`, counted back from it. They are the same behind any other
last byte `u`. -/
theorem not_hasWrongFill_pkcs7_concat_iff {X : Bytes} (u : Byte) {v : Byte} (hle : v.toNat ≤ X.length + 1) :
    ¬HasWrongFill .pkcs7 (X ++ [v]) ↔ ∀ k, 1 ≤ k → k < v.toNat → (X ++ [u]).getD (X.length - k) 0 = v := by
  have hprev (w : Byte) {i : Nat} (hi : i < X.length) : (X ++ [w]).getD i 0 = X.getD i 0 :=
    List.getD_append _ _ _ _ hi
  simp only [HasWrongFill, WrongFill, List.length_append, List.length_singleton, padByte_concat, true_and, reduceCtorEq,
    false_and, or_false, not_exists, not_and, not_not, BitVec.toNat_inj]
  constructor
  · intro h k hk hkv
    rw [hprev u (by omega), ← hprev v (by omega)]
    exact h _ (by omega) (by omega)
  · intro h i hi hiX
    by_cases hlast : i = X.length
    · simp [hlast]
    · have := h (X.length - i) (by omega) (by omega)
      rwa [Nat.sub_sub_self (by omega), hprev u (by omega), ← hprev v (by omega)] at this

/-- R157, R160, R161: when PKCS7 accepts a tail of whole blocks with the last byte `v`. -/
theorem unpad_pkcs7_concat_ok_iff {X : Bytes} {B : Nat} (hmod : (X.length + 1) % B = 0) (u v : Byte) :
    (∃ R, unpad .pkcs7 (X ++ [v]) B = .ok R) ↔
      1 ≤ v.toNat ∧ v.toNat ≤ B ∧ ∀ k, 1 ≤ k → k < v.toNat → (X ++ [u]).getD (X.length - k) 0 = v := by
  classical
  have hle : B ≤ X.length + 1 := Nat.le_of_dvd (Nat.succ_pos _) (Nat.dvd_of_mod_eq_zero hmod)
  have hchecks := unpadChecks_eq (X ++ [v]) B
  rw [padByte_concat, if_neg (by simp [hmod])] at hchecks
  by_cases hvalue : v.toNat < 1 ∨ B < v.toNat
  · rw [if_pos hvalue] at hchecks
    simp only [unpad_count_error (.inl rfl) hchecks, reduceCtorEq, exists_false, false_iff]
    omega
  · rw [if_neg hvalue] at hchecks
    obtain ⟨hpos, hB⟩ : 1 ≤ v.toNat ∧ v.toNat ≤ B := by omega
    rw [unpad_count_of_checks (.inl rfl) hchecks, ← not_hasWrongFill_pkcs7_concat_iff u (hB.trans hle)]
    by_cases hwrong : HasWrongFill .pkcs7 (X ++ [v]) <;> simp [hwrong, hpos, hB]

/-- R167: behind given bytes, PKCS7 accepts as last byte only 01 and the byte before the last. -/
theorem eq_of_unpad_pkcs7_concat_ok {X : Bytes} {B : Nat} (hmod : (X.length + 1) % B = 0) {v : Byte}
    (h : ∃ R, unpad .pkcs7 (X ++ [v]) B = .ok R) : v = 1 ∨ v = (X ++ [0]).getD (X.length - 1) 0 := by
  obtain ⟨hpos, -, hfill⟩ := (unpad_pkcs7_concat_ok_iff hmod 0 v).mp h
  by_cases hone : v.toNat = 1
  · exact .inl (BitVec.eq_of_toNat_eq hone)
  · exact .inr (hfill 1 le_rfl (by omega)).symm

/-- R157: a tail that PKCS7 accepts has a last byte, and whole blocks. -/
theorem exists_concat_of_unpad_pkcs7_ok {D Q : Bytes} {B : Nat} (h : unpad .pkcs7 D B = .ok Q) :
    ∃ X u, D = X ++ [u] ∧ (X.length + 1) % B = 0 := by
  by_cases hlen : D.length % B ≠ 0 ∨ D = []
  · rw [unpad_count_error (.inl rfl) (by rw [unpadChecks_eq, if_pos hlen])] at h
    cases h
  · obtain ⟨hmod, hne⟩ := not_or.mp hlen
    have hD := List.dropLast_concat_getLast hne
    refine ⟨D.dropLast, D.getLast hne, hD.symm, ?_⟩
    rw [← hD] at hmod
    simpa using hmod

end Sys2Proof.Machine

open Sys2Proof Sys2Proof.Machine

/-- Settles O34: the count modes add `padCount` (`pad_count_length`), and Zeros rounds up (`pad_zeros_length`). -/
theorem paddedLengths : Obligations.PaddedLengths := by
  intro mode P B s hB L padded
  have hcount (h : mode = .pkcs7 ∨ mode = .ansix923 ∨ mode = .iso10126) : padded = L + padCount B L :=
    pad_count_length h P hB s
  have hzeros (h : mode = .zeros) : padded = (L + B - 1) / B * B := by
    subst h; exact pad_zeros_length P hB s
  refine ⟨?_, ?_, fun h => ?_, hzeros⟩
  · rintro rfl; rfl
  · intro h
    cases mode with
    | noPad => exact absurd rfl h
    | zeros => rw [hzeros rfl, Nat.mul_mod_left]
    | pkcs7 | ansix923 | iso10126 => rw [hcount (by simp)]; exact padCount_aligns hB L
  · have hpos := padCount_pos hB L
    have hle := padCount_le B L
    rw [hcount h]
    exact ⟨rfl, by omega, by omega⟩

/-- Settles O35: `unpad_pad`, and for Zeros the other direction. -/
theorem unpadInvertsPad : Obligations.UnpadInvertsPad := by
  intro mode P B s hpos hB
  refine ⟨fun hmode => unpad_pad hpos hB s fun h => absurd h hmode, fun h => ?_, fun hP => unpad_pad_zeros hpos hP s⟩
  exact or_iff_not_imp_left.mpr (getLast?_ne_zero_of_unpad_pad_zeros hpos h)

/-- Settles O36: the shared checks (`unpadChecks_eq`), then each mode's own (`unpad_count_of_checks`). -/
theorem unpadChecksInOrder : Obligations.UnpadChecksInOrder := by
  classical
  intro D B hB N mode hmode
  have hN : padByte D = N := padByte_eq_getD D
  have hchecks := unpadChecks_eq D B
  refine ⟨fun hlen => ?_, fun hlen hvalue => ?_, fun hlen hvalue => ?_⟩
  · exact unpad_count_error hmode (by rw [hchecks, if_pos hlen])
  · rw [if_neg (by tauto), hN, if_pos hvalue] at hchecks
    exact unpad_count_error hmode hchecks
  · rw [if_neg (by tauto), hN, if_neg (by omega)] at hchecks
    have hrest := unpad_count_of_checks hmode hchecks
    simp only [HasWrongFill, WrongFill, hN] at hrest
    refine ⟨fun hbad => ?_, fun hgood => ?_⟩
    · rw [hrest, if_pos hbad]
    · rw [hrest, if_neg fun ⟨i, hfrom, hto, hwrong⟩ => hgood i hfrom hto hwrong, dropTail]

/-- Settles O37: `k` is `zeroTail D B`. -/
theorem zerosTrimsAtMostOneBlock : Obligations.ZerosTrimsAtMostOneBlock := by
  intro D B _
  refine ⟨fun hmod => by rw [unpad_zeros_eq, if_pos hmod], fun hmod => ⟨zeroTail D B, ?_, zeroTail_le D B,
    zeroTail_le_length D B, fun i hi => getD_eq_zero_of_lt_zeroTail hi, zeroTail_stops D B⟩⟩
  rw [unpad_zeros_eq, if_neg (not_not.mpr hmod), dropTail]

/-- Settles O38: an accepted last byte is 01 or the byte before the last (`eq_of_unpad_pkcs7_concat_ok`). The old last
byte is one of the two, so only the other can replace it; with N = 2 the two are 01 and 02, and no single-bit flip of
02 is either. -/
theorem pkcs7AcceptsOneCorruption : Obligations.Pkcs7AcceptsOneCorruption := by
  intro D Q B h
  obtain ⟨X, u, rfl, hmod⟩ := exists_concat_of_unpad_pkcs7_ok h
  have hu := eq_of_unpad_pkcs7_concat_ok hmod ⟨Q, h⟩
  simp only [List.dropLast_concat, List.getLastD_concat, List.length_append, List.length_singleton,
    Nat.add_sub_cancel]
  refine ⟨fun v _ => unpad_pkcs7_concat_ok_iff hmod u v, fun v w hv hw hpv hpw => ?_, ?_⟩
  · have hv' := eq_of_unpad_pkcs7_concat_ok hmod hpv
    have hw' := eq_of_unpad_pkcs7_concat_ok hmod hpw
    rcases hu with rfl | rfl
    · exact (hv'.resolve_left hv).trans (hw'.resolve_left hw).symm
    · exact (hv'.resolve_right hv).trans (hw'.resolve_right hw).symm
  · rintro rfl bit hbit hpass
    have hprev := hu.resolve_left (by decide)
    have hflip : ∀ bit < 8, (2 ^^^ (1 <<< bit) : Byte) ≠ 1 ∧ (2 ^^^ (1 <<< bit) : Byte) ≠ 2 := by decide
    obtain ⟨hne1, hne2⟩ := hflip bit hbit
    rcases eq_of_unpad_pkcs7_concat_ok hmod hpass with h1 | h2
    · exact hne1 h1
    · exact hne2 (h2.trans hprev.symm)

end

section
/-! The configuration registers, the parameter and the entropy position, command by command (R7, R28 to R31, R180). -/

namespace Sys2Proof.Machine

/-- R7, R155: a command that draws no fill leaves the entropy position. From the position it stands at, its answer is
one that leaves that position (`Answers.atEntropy`), and a command has one answer. -/
theorem Answers.entropyPos_eq {i : Instr} {s t : State} {r : Response} (h : Answers i s t r)
    (hi : ¬(IsFinal i ∧ s.dir = .encrypt ∧ s.padm = .iso10126)) : t.entropyPos = s.entropyPos := by
  obtain ⟨ht, -⟩ := h.unique (h.atEntropy hi s.entropyPos)
  rw [ht, atEntropy_entropyPos]

/-- R206: an encrypting XFORM_FINAL that does not succeed has failed its checks, and leaves every field but the
outbox. -/
theorem Answers.xformFinal_encrypt_failed {count : Word} {payload : Bytes} {s t : State} {r : Response}
    (h : Answers (.xformFinal count payload) s t r) (hdir : s.dir = .encrypt) (hr : r.status ≠ 0) :
    ∃ e, t = raiseErr e s := by
  obtain ⟨e, -, rfl, -⟩ | ⟨-, D, -, ⟨d, hd, -⟩ | ⟨out, -, -, rfl⟩⟩ := h.xformFinal_cases
  · exact ⟨e, rfl⟩
  · rw [finalTransform_encrypt hdir] at hd
    cases hd
  · exact absurd rfl hr

/-- R7, R155: only an encrypting XFORM_FINAL that succeeds under ISO10126 moves the entropy position. -/
theorem Answers.entropyPos_eq_of_not_isoFinal {i : Instr} {s t : State} {r : Response} (h : Answers i s t r)
    (hi : ¬(IsFinal i ∧ r.status = 0 ∧ s.dir = .encrypt ∧ s.padm = .iso10126)) : t.entropyPos = s.entropyPos := by
  by_cases hiso : IsFinal i ∧ s.dir = .encrypt ∧ s.padm = .iso10126
  · obtain ⟨hfinal, hdir, hm⟩ := hiso
    have hr : r.status ≠ 0 := fun hr => hi ⟨hfinal, hr, hdir, hm⟩
    obtain ⟨count, payload, rfl⟩ := hfinal
    obtain ⟨e, rfl⟩ := h.xformFinal_encrypt_failed hdir hr
    exact raiseErr_entropyPos e s
  · exact h.entropyPos_eq hiso

@[simp] theorem initCommon_rc4MinKeyBytes (dir : Direction) (eng : Engine) (padm : PadMode) (o : InitOps) (s : State) :
    (initCommon dir eng padm o s).rc4MinKeyBytes = s.rc4MinKeyBytes := by cases eng <;> rfl

/-- R6, R203, R204: an INIT keeps the parameter, and outside IDLE the configuration registers. -/
theorem init_configuration {i : Instr} {dir : Direction} {o : InitOps} {s t : State} {r : Response}
    (hx : exec i s = .next (initWith dir o s)) (h : Answers i s t r) :
    t.rc4MinKeyBytes = s.rc4MinKeyBytes ∧
      (s.st ≠ .idle → t.dir = s.dir ∧ t.eng = s.eng ∧ t.padm = s.padm ∧ t.bs = s.bs) := by
  obtain ⟨e, -, rfl, -⟩ | ⟨eng, padm, hc, rfl, -⟩ := h.init_cases hx
  · exact ⟨rfl, fun _ => ⟨rfl, rfl, rfl, rfl⟩⟩
  · exact ⟨by simp, fun hst => absurd (initCheck_ok hc).1 hst⟩

/-- R205: XFORM_BLOCK keeps the configuration, ST included. -/
theorem Answers.xformBlock_sameConfig {count ocap : Word} {payload : Bytes} {s t : State} {r : Response}
    (h : Answers (.xformBlock count ocap payload) s t r) : SameConfig s t := by
  obtain ⟨e, -, rfl, -⟩ | ⟨-, D, -, rfl, -⟩ := h.xformBlock_cases
  · exact ⟨rfl, rfl, rfl, rfl, rfl, rfl⟩
  · obtain ⟨hst, hdir, heng, hpadm, hbs, hmin⟩ := blockTransform_sameConfig D s
    exact ⟨hst, hdir, heng, hpadm, hbs, hmin⟩

/-- R206: XFORM_FINAL keeps the configuration but for ST. -/
theorem Answers.xformFinal_sameConfig {count : Word} {payload : Bytes} {s t : State} {r : Response}
    (h : Answers (.xformFinal count payload) s t r) : SameConfig s { t with st := s.st } := by
  obtain ⟨e, -, rfl, -⟩ | ⟨-, D, -, ⟨d, -, rfl, -⟩ | ⟨out, -, rfl, -⟩⟩ := h.xformFinal_cases
  · exact ⟨rfl, rfl, rfl, rfl, rfl, rfl⟩
  all_goals
    obtain ⟨-, hdir, heng, hpadm, hbs, hmin⟩ := finalTransform_sameConfig D s
    exact ⟨rfl, hdir, heng, hpadm, hbs, hmin⟩

end Sys2Proof.Machine

open Sys2Proof Sys2Proof.Machine

/-- Settles O16, command by command: an INIT outside IDLE is refused (`init_configuration`), and the datapaths of the
transform commands keep the configuration. The entropy position is `Answers.entropyPos_eq_of_not_isoFinal`. -/
theorem configurationIsFixed : Obligations.ConfigurationIsFixed := by
  intro i s t r h
  suffices hconfig : t.rc4MinKeyBytes = s.rc4MinKeyBytes ∧ _ from
    ⟨hconfig.1, h.entropyPos_eq_of_not_isoFinal, hconfig.2⟩
  cases i with
  | initEnc o => exact init_configuration (execInitEnc_eq o s) h
  | initDec o => exact init_configuration (execInitDec_eq o s) h
  | xformBlock count ocap payload =>
    obtain ⟨-, hdir, heng, hpadm, hbs, hmin⟩ := h.xformBlock_sameConfig
    exact ⟨hmin, hdir, heng, hpadm, hbs⟩
  | xformFinal count payload =>
    obtain ⟨-, hdir, heng, hpadm, hbs, hmin⟩ := h.xformFinal_sameConfig
    exact ⟨hmin, hdir, heng, hpadm, hbs⟩
  | getInfo =>
    obtain ⟨rfl, -⟩ := h.getInfo
    exact ⟨rfl, rfl, rfl, rfl, rfl⟩
  | dispose =>
    obtain ⟨rfl, -⟩ := h.dispose
    exact ⟨rfl, rfl, rfl, rfl, rfl⟩

/-- Settles O39: the involution is `xorKs_xorKs`; the state after a keystream XOR depends on the text's length alone
(`xorKs_state_congr`), and is the draw's with M advanced (`xorKs_state`, `ks_state`). -/
theorem xorKsIsItsOwnInverse : Obligations.XorKsIsItsOwnInverse := by
  intro D s
  refine ⟨xorKs_xorKs D s, xorKs_state_congr (xorKs_length D s) s, xorKs_length D s, xorKs_nil s, ?_, fun he => ?_,
    fun he => ?_⟩
  · simp only [xorKs_state, ks_state]
  · simp [xorKs_state, ks_state, he]
  · simp [xorKs_state, ks_state, he]

end

section
/-! A stream in pass-through mode (R180, R183, R187, R205, R206): the whole state and the output of any chunking are those
of one XFORM_FINAL over the whole input. -/

namespace Sys2Proof.Machine

/-! ### The outbox is never read -/

/-- The state `s` with the responses `q` returned (assumption 1). -/
def State.withOutbox (s : State) (q : List Response) : State := { s with outbox := q }

section
variable (s : State) (q : List Response)

/-- The outbox is no register of the block. -/
theorem sameRegisters_withOutbox (q' : List Response) : SameRegisters (s.withOutbox q) (s.withOutbox q') :=
  ⟨rfl, rfl, rfl, rfl, rfl, rfl, rfl, rfl, rfl, rfl⟩

/-- R181. -/
theorem ks_withOutbox (n : Nat) : ks n (s.withOutbox q) = ((ks n s).1, (ks n s).2.withOutbox q) := by
  unfold ks
  cases h : s.eng <;> simp only [State.withOutbox, h]

/-- R182. -/
theorem xorKs_withOutbox (D : Bytes) : xorKs D (s.withOutbox q) = ((xorKs D s).1, (xorKs D s).2.withOutbox q) := by
  simp only [xorKs, ks_withOutbox]
  rfl

/-- R151 to R155. -/
theorem pad_withOutbox (mode : PadMode) (P : Bytes) (B : Nat) :
    pad mode P B (s.withOutbox q) = ((pad mode P B s).1, (pad mode P B s).2.withOutbox q) := by cases mode <;> rfl

/-- R206. -/
theorem finalEncrypt_withOutbox (D : Bytes) :
    finalEncrypt D (s.withOutbox q) = ((finalEncrypt D s).1, (finalEncrypt D s).2.withOutbox q) :=
  (congrArg (fun r : Bytes × State => xorKs r.1 r.2) (pad_withOutbox s q ..)).trans (xorKs_withOutbox ..)

end

/-! ### XFORM_FINAL behind whole blocks -/

/-- R151 to R155: of the state, padding reads the entropy position alone. -/
theorem pad_bytes_congr {s t : State} (h : t.entropyPos = s.entropyPos) (mode : PadMode) (P : Bytes) (B : Nat) :
    (pad mode P B t).1 = (pad mode P B s).1 := by
  cases mode with
  | iso10126 => simp only [pad, entropy, h]
  | noPad | pkcs7 | zeros | ansix923 => rfl

/-- R155: whole blocks before the tail do not change how many bytes padding asks of the entropy source. -/
theorem entropyAsked_add {B m : Nat} (hm : B ∣ m) (mode : PadMode) (n : Nat) :
    entropyAsked mode B (m + n) = entropyAsked mode B n := by
  cases mode with
  | iso10126 => rw [entropyAsked, entropyAsked, padCount_add hm]
  | noPad | pkcs7 | zeros | ansix923 => rfl

/-- R158, R180, R206: in pass-through mode XFORM_FINAL pads and XORs, since a decryption in that mode is under None, which
pads nothing. -/
theorem finalTransform_passThrough {s : State} (h : s.laMode = false) (D : Bytes) :
    finalTransform D s = (.ok (finalEncrypt D s).1, (finalEncrypt D s).2) := by
  obtain hdir | ⟨hdir, hp⟩ | hla := dir_padm_cases s
  · exact finalTransform_encrypt hdir D
  · rw [finalTransform_decryptNone hdir hp, finalEncrypt, hp]
    rfl
  · rw [(laMode_iff s).mpr hla] at h
    cases h

/-- R182, R187, R206: padding and XORing a text whose first part is whole blocks is XORing that part, then padding and
XORing the rest. -/
theorem finalEncrypt_append {X : Bytes} {s : State} (hX : s.bs.toNat ∣ X.length)
    (hdraw : s.eng = .rabbit → 16 ∣ X.length) (D : Bytes) :
    finalEncrypt (X ++ D) s = ((xorKs X s).1 ++ (finalEncrypt D (xorKs X s).2).1, (finalEncrypt D (xorKs X s).2).2) := by
  have hpad : (pad s.padm D s.bs.toNat (xorKs X s).2).1 = (pad s.padm D s.bs.toNat s).1 :=
    pad_bytes_congr (xorKs_entropyPos X s) ..
  simp only [finalEncrypt_eq, pad_append hX, xorKs_append hdraw, xorKs_padm, xorKs_bs, xorKs_entropyPos, hpad,
    List.length_append, entropyAsked_add hX]

/-! ### The stream -/

/-- A transform in pass-through mode: ACTIVE, encrypting or under None, with a legal block size. -/
structure State.PassesThrough (s : State) : Prop where
  active : s.st = .active
  not_laMode : s.laMode = false
  blockSizeLegal : s.BlockSizeLegal

/-- R180: pass-through mode is encrypting, or working under None. -/
theorem not_laMode_of {s : State} (h : s.dir = .encrypt ∨ s.padm = .noPad) : s.laMode = false := by
  obtain h | h := h <;> simp [State.laMode, h]

/-- The registers that say whether a block is held play no part in pass-through mode. -/
theorem State.PassesThrough.ready {s : State} (h : s.PassesThrough) : (clearLookahead s).Ready :=
  ⟨h.active, h.blockSizeLegal, fun hv => Bool.noConfusion hv⟩

theorem State.PassesThrough.draws_whole {s : State} (h : s.PassesThrough) {n : Nat} (hn : s.bs.toNat ∣ n) :
    s.eng = .rabbit → 16 ∣ n := h.ready.draws_whole hn

/-- R182: a keystream XOR stays in pass-through mode. -/
theorem State.PassesThrough.after_xorKs {s : State} (h : s.PassesThrough) (D : Bytes) (q : List Response) :
    ((xorKs D s).2.withOutbox q).PassesThrough := by
  have hc := xorKs_sameConfig D s
  refine ⟨hc.st.trans h.active, hc.laMode_eq.trans h.not_laMode, fun _ => ?_⟩
  have hbs := h.blockSizeLegal (by simp [h.active])
  rw [← hc.bs, ← hc.eng] at hbs
  exact hbs

/-- R205: in pass-through mode the XFORM_BLOCK of a legal chunk XORs it, and does nothing more than answer. -/
theorem succeeds_chunk_passThrough {s : State} (hs : s.PassesThrough) {D : Bytes} (hD : ChunkLegal s.bs.toNat D)
    (hlen : D.length < 2 ^ 32) :
    ∃ q, Succeeds (blockCommands [D]) s ((xorKs D s).2.withOutbox q) (xorKs D s).1 := by
  have hcheck : xformBlockCheck (BitVec.ofNat 32 D.length) (BitVec.ofNat 32 D.length) D s = none :=
    xformBlockCheck_chunk hs.ready hD hlen
  have hx := exec_xformBlock_accepted hcheck
  rw [payloadRead_all hlen, blockTransform_passThrough hs.not_laMode] at hx
  exact ⟨_, Succeeds.of_answers (answers_respond hx (xorKs_inbox ..) (xorKs_outbox ..)) rfl⟩

/-- R205: the XFORM_BLOCKs of legal chunks XOR their concatenation. -/
theorem succeeds_chunks_passThrough {chunks : List Bytes} {s : State} (hs : s.PassesThrough)
    (hchunks : ∀ D ∈ chunks, ChunkLegal s.bs.toNat D) (hlen : ∀ D ∈ chunks, D.length < 2 ^ 32) :
    ∃ q, Succeeds (blockCommands chunks) s ((xorKs chunks.flatten s).2.withOutbox q) (xorKs chunks.flatten s).1 := by
  induction chunks generalizing s with
  | nil =>
    rw [List.flatten_nil, xorKs_nil]
    exact ⟨s.outbox, .nil s⟩
  | cons D chunks ih =>
    obtain ⟨hD, hrest⟩ := List.forall_mem_cons.mp hchunks
    obtain ⟨hDlen, hrestlen⟩ := List.forall_mem_cons.mp hlen
    obtain ⟨q, hrun⟩ := succeeds_chunk_passThrough hs hD hDlen
    obtain ⟨q', hrun'⟩ := ih (hs.after_xorKs D q) (by rwa [(xorKs_sameConfig D s).bs.symm] at hrest) hrestlen
    rw [xorKs_withOutbox] at hrun'
    rw [List.flatten_cons, xorKs_append (hs.draws_whole (Nat.dvd_of_mod_eq_zero hD.2))]
    exact ⟨q', hrun.append hrun'⟩

/-- R206: in pass-through mode the XFORM_FINAL of a whole tail succeeds with the padded tail, XORed, and ends the
transform. -/
theorem succeeds_final_passThrough {s : State} (hs : s.PassesThrough) {D : Bytes} (hlen : D.length < 2 ^ 32) :
    ∃ q, Succeeds [finalCommand D] s ({ (finalEncrypt D s).2 with st := .done }.withOutbox q) (finalEncrypt D s).1 := by
  have hcheck : xformFinalCheck (BitVec.ofNat 32 D.length) D s = none := xformFinalCheck_tail hs.ready hlen
  have hx := exec_xformFinal_accepted hcheck
    (by rw [payloadRead_all hlen, finalTransform_passThrough hs.not_laMode])
  exact ⟨_, Succeeds.of_answers (answers_respond hx (by simp [finalEncrypt_eq]) (by simp [finalEncrypt_eq])) rfl⟩

/-- Whole blocks, one after another, are whole blocks. -/
theorem bs_dvd_flatten_length {B : Nat} {chunks : List Bytes} (h : ∀ D ∈ chunks, ChunkLegal B D) :
    B ∣ chunks.flatten.length := by
  rw [List.length_flatten]
  refine List.dvd_sum fun n hn => ?_
  obtain ⟨D, hD, rfl⟩ := List.mem_map.mp hn
  exact Nat.dvd_of_mod_eq_zero (h D hD).2

/-- R187: in pass-through mode a stream answers and leaves what one XFORM_FINAL's datapath over the whole input gives. -/
theorem succeeds_stream_passThrough {chunks : List Bytes} {tail : Bytes} {s : State} (hs : s.PassesThrough)
    (hchunks : ∀ D ∈ chunks, ChunkLegal s.bs.toNat D) (hlen : (chunks.flatten ++ tail).length < 2 ^ 32) :
    ∃ q, Succeeds (streamCommands chunks tail) s
      ({ (finalEncrypt (chunks.flatten ++ tail) s).2 with st := .done }.withOutbox q)
      (finalEncrypt (chunks.flatten ++ tail) s).1 := by
  obtain ⟨hlens, htail⟩ := length_lt_of_mem_chunks hlen
  have hdvd := bs_dvd_flatten_length hchunks
  obtain ⟨q, hrun⟩ := succeeds_chunks_passThrough hs hchunks hlens
  obtain ⟨q', hrun'⟩ := succeeds_final_passThrough (hs.after_xorKs chunks.flatten q) htail
  rw [finalEncrypt_withOutbox] at hrun'
  rw [finalEncrypt_append hdvd (hs.draws_whole hdvd)]
  exact ⟨q', hrun.append hrun'⟩

/-- One XFORM_FINAL is a stream without chunks. -/
theorem exec_finalCommand_of_execAll {D : Bytes} {s t : State} (h : execAll (streamCommands [] D) s = .next t) :
    exec (finalCommand D) s = .next t := by
  obtain ⟨u, -, hx, -⟩ := exec_answers (finalCommand D) s
  rw [hx]
  exact (execAll_cons_of_next hx []).symm.trans h

/-! ### Two inputs of one length -/

/-- R151 to R155: the padding added depends on the length of the text, not on its bytes. -/
theorem exists_pad_eq_append (mode : PadMode) {P Q : Bytes} (h : P.length = Q.length) (B : Nat) (s : State) :
    ∃ fill, (pad mode P B s).1 = P ++ fill ∧ (pad mode Q B s).1 = Q ++ fill := by
  cases mode with
  | noPad => exact ⟨[], (List.append_nil P).symm, (List.append_nil Q).symm⟩
  | zeros =>
    simp only [pad, padZeros, h]
    split_ifs
    · exact ⟨[], (List.append_nil P).symm, (List.append_nil Q).symm⟩
    · exact ⟨_, rfl, rfl⟩
  | pkcs7 => exact ⟨_, rfl, by simp only [pad, padPkcs7, h]⟩
  | ansix923 => exact ⟨_, List.append_assoc .., by simp only [pad, padAnsix923, h, List.append_assoc]⟩
  | iso10126 => exact ⟨_, List.append_assoc .., by simp only [pad, padIso10126, h, List.append_assoc]⟩

theorem xorBytes_self (D : Bytes) : xorBytes D D = zeros D.length := by
  refine List.ext_getElem (by simp) fun n _ _ => ?_
  simp [xorBytes]

/-- Equal keystream cancels. -/
theorem xorBytes_cancel {D E K : Bytes} (hD : D.length = K.length) (hE : E.length = K.length) :
    xorBytes (xorBytes D K) (xorBytes E K) = xorBytes D E := by
  have cancel (a b k : Byte) : (a ^^^ k) ^^^ (b ^^^ k) = a ^^^ b := by
    rw [BitVec.xor_comm b, BitVec.xor_assoc, ← BitVec.xor_assoc k, BitVec.xor_self, BitVec.zero_xor]
  refine List.ext_getElem (by simp [hD, hE]) fun n _ _ => ?_
  simp only [xorBytes, List.getElem_zipWith, cancel]

/-- R182, R188: from one state, the XOR of two outputs of one length is the XOR of the inputs. -/
theorem xorBytes_xorKs {D E : Bytes} (h : D.length = E.length) (s : State) :
    xorBytes (xorKs D s).1 (xorKs E s).1 = xorBytes D E := by
  rw [xorKs_bytes, xorKs_bytes, h, xorBytes_cancel (by simp [h]) (by simp)]

/-- R188: for two inputs of one length, the XOR of what padding and XORing gives is the XOR of the inputs, then zeros. -/
theorem xorBytes_finalEncrypt {P Q : Bytes} (h : P.length = Q.length) (s : State) :
    xorBytes (finalEncrypt P s).1 (finalEncrypt Q s).1 =
      xorBytes P Q ++ zeros ((pad s.padm P s.bs.toNat s).1.length - P.length) := by
  obtain ⟨fill, hP, hQ⟩ := exists_pad_eq_append s.padm h s.bs.toNat s
  rw [finalEncrypt_eq, finalEncrypt_eq, xorBytes_xorKs (by simp [hP, hQ, h]), hP, hQ, xorBytes_append h, xorBytes_self,
    List.length_append, Nat.add_sub_cancel_left]

/-- R55: whether a chunk is legal depends on its length alone. -/
theorem chunkLegal_iff_length (B : Nat) (D : Bytes) : ChunkLegal B D ↔ D.length ≠ 0 ∧ D.length % B = 0 := by
  rw [ChunkLegal, ne_eq, ne_eq, List.length_eq_zero_iff]

theorem chunksLegal_of_map_length_eq {B : Nat} {chunks chunks' : List Bytes} (h : ∀ D ∈ chunks, ChunkLegal B D)
    (hmap : chunks.map List.length = chunks'.map List.length) : ∀ D ∈ chunks', ChunkLegal B D := by
  intro D hD
  obtain ⟨E, hE, hlen⟩ := List.mem_map.mp (hmap ▸ List.mem_map_of_mem hD)
  rw [chunkLegal_iff_length, ← hlen, ← chunkLegal_iff_length]
  exact h E hE

end Sys2Proof.Machine

open Sys2Proof Sys2Proof.Machine

/-- Settles O57: a stream and one XFORM_FINAL, which is a stream without chunks, both end as the datapath over the whole
input (`succeeds_stream_passThrough`). -/
theorem chunkIndependencePassThrough : Obligations.ChunkIndependencePassThrough := by
  intro chunks tail s hst hmode hbs hchunks hlen
  have hs : s.PassesThrough := ⟨hst, not_laMode_of hmode, hbs⟩
  obtain ⟨q, hrun⟩ := succeeds_stream_passThrough hs hchunks (Nat.lt_of_add_right_lt hlen)
  obtain ⟨q', hrun'⟩ := succeeds_stream_passThrough (chunks := []) hs (by simp) (Nat.lt_of_add_right_lt hlen)
  exact ⟨_, _, hrun.run, exec_finalCommand_of_execAll hrun'.run, hrun.newOutput_eq.trans hrun'.newOutput_eq.symm,
    sameRegisters_withOutbox .., rfl⟩

/-- Settles O60: each output is the padded input, XORed (`succeeds_stream_passThrough`), and equal keystream and equal
padding cancel (`xorBytes_finalEncrypt`). -/
theorem keystreamXorProperty : Obligations.KeystreamXorProperty := by
  intro chunks chunks' tail tail' s hst hmode hbs hchunks hmap htail hlen P added
  have hs : s.PassesThrough := ⟨hst, not_laMode_of hmode, hbs⟩
  have hlength : P.length = (chunks'.flatten ++ tail').length := by
    simp only [P, List.length_append, List.length_flatten, hmap, htail]
  have hadded : added = (pad s.padm P s.bs.toNat s).1.length - P.length := by
    obtain hdir | hp := hmode
    · exact if_pos hdir
    · simp [added, hp, pad]
  obtain ⟨q, hrun⟩ := succeeds_stream_passThrough hs hchunks (Nat.lt_of_add_right_lt hlen)
  obtain ⟨q', hrun'⟩ := succeeds_stream_passThrough hs (chunksLegal_of_map_length_eq hchunks hmap)
    (hlength ▸ Nat.lt_of_add_right_lt hlen)
  refine ⟨_, _, hrun.run, hrun'.run, ?_⟩
  rw [hrun.newOutput_eq, hrun'.newOutput_eq, hadded]
  exact xorBytes_finalEncrypt hlength s

end

section
/-! A padded decryption (R180, R183 to R187, R206): its verdict, the registers it leaves and, where it succeeds, its
output are those of the whole ciphertext, in any chunking. -/

namespace Sys2Proof.Machine

/-! ### M along a run -/

/-- R34, R205: XFORM_BLOCK moves M by the bytes it answers, none if it is refused. -/
theorem Answers.xformBlock_m {count ocap : Word} {payload : Bytes} {s t : State} {r : Response}
    (h : Answers (.xformBlock count ocap payload) s t r) : t.m = s.m + BitVec.ofNat 64 r.out.length := by
  obtain ⟨e, -, rfl, rfl⟩ | ⟨-, D, -, rfl, rfl⟩ := h.xformBlock_cases
  · exact (BitVec.add_zero s.m).symm
  · exact blockTransform_m D s

theorem execAll_blockCommands_m {chunks : List Bytes} {s t : State} (h : execAll (blockCommands chunks) s = .next t) :
    ∃ rs, t.outbox = s.outbox ++ rs ∧ t.m = s.m + BitVec.ofNat 64 (rs.map Response.out).flatten.length := by
  induction chunks generalizing s with
  | nil =>
    cases h
    exact ⟨[], (List.append_nil _).symm, (BitVec.add_zero _).symm⟩
  | cons D chunks ih =>
    obtain ⟨u, r, ha⟩ := exec_answers (.xformBlock (BitVec.ofNat 32 D.length) (BitVec.ofNat 32 D.length) D) s
    have hm := ha.xformBlock_m
    obtain ⟨hx, hbox, -⟩ := ha
    obtain ⟨rs, hbox', hm'⟩ := ih ((execAll_cons_of_next hx _).symm.trans h)
    refine ⟨r :: rs, by rw [hbox', hbox, List.append_assoc, List.singleton_append], ?_⟩
    rw [hm', hm, List.map_cons, List.flatten_cons, List.length_append, BitVec.ofNat_add, BitVec.add_assoc]

/-- R34: XFORM_BLOCKs move M by the bytes they output together. -/
theorem Succeeds.blockCommands_m {chunks : List Bytes} {s t : State} {out : Bytes}
    (h : Succeeds (blockCommands chunks) s t out) : t.m = s.m + BitVec.ofNat 64 out.length := by
  obtain ⟨rs, hbox, hm⟩ := execAll_blockCommands_m h.run
  rw [hm, ← h.newOutput_eq, newOutput, hbox, List.drop_left]

/-! ### The XFORM_FINAL of a padded decryption -/

/-- R206, R236: the response of an XFORM_FINAL to what its datapath gives. -/
def finalResponse : Except PadError Bytes → Response
  | .error d => errResponse (.pad d)
  | .ok out => okResponse (resultOf out.length) out

/-- R206: the answer of the XFORM_FINAL of a whole tail. -/
theorem answers_finalCommand {s : State} (hs : s.Ready) {D : Bytes} (hlen : D.length < 2 ^ 32) :
    Answers (finalCommand D) s
      (respond (finalResponse (finalTransform D s).1) { (finalTransform D s).2 with st := .done })
      (finalResponse (finalTransform D s).1) := by
  have hcheck := xformFinalCheck_tail hs hlen
  refine answers_respond ?_ (finalTransform_inbox D s) (finalTransform_outbox D s)
  cases hdata : (finalTransform D s).1 with
  | error d => exact exec_xformFinal_padError hcheck (by rw [payloadRead_all hlen, ← hdata])
  | ok out => exact exec_xformFinal_accepted hcheck (by rw [payloadRead_all hlen, ← hdata])

/-- R84, R235: bytes output before an XFORM_FINAL change nothing about its verdict. -/
theorem finalResponse_map_append (out : Bytes) (v : Except PadError Bytes) :
    (finalResponse (v.map (out ++ ·))).status = (finalResponse v).status ∧
      (finalResponse (v.map (out ++ ·))).detail = (finalResponse v).detail ∧
      ((finalResponse v).status = 0 → (finalResponse (v.map (out ++ ·))).out = out ++ (finalResponse v).out) := by
  cases v with
  | error d => exact ⟨rfl, rfl, fun h => absurd h (err_status_ne_zero (.pad d))⟩
  | ok Q => exact ⟨rfl, rfl, fun _ => rfl⟩

/-- R181: the keystream does not depend on the lookahead buffer. -/
theorem ks_clearLookahead (n : Nat) (s : State) : ks n (clearLookahead s) = ((ks n s).1, clearLookahead (ks n s).2) := by
  unfold ks
  cases h : s.eng <;> simp only [clearLookahead, h]

/-- R182. -/
theorem xorKs_clearLookahead (D : Bytes) (s : State) :
    xorKs D (clearLookahead s) = ((xorKs D s).1, clearLookahead (xorKs D s).2) := by
  simp only [xorKs, ks_clearLookahead]
  rfl

/-- The state after the decryption of the whole ciphertext `W` (R206): `W` XORed, the lookahead buffer cleared, and the
transform DONE. -/
def State.decrypted (s : State) (W : Bytes) : State := { clearLookahead (xorKs W s).2 with st := .done }

/-- R185, R206: the decrypted tail is the held block and the input, XORed as one text. -/
theorem finalTail_eq {s : State} (hs : s.Ready) (D : Bytes) :
    finalTail D s = ((xorKs (s.pending ++ D) s).1, clearLookahead (xorKs (s.pending ++ D) s).2) := by
  rw [xorKs_append (hs.draws_whole hs.bs_dvd_pending), finalTail, State.pending]
  obtain ⟨hv, hr⟩ | ⟨hv, hr⟩ := release_cases s <;> simp only [hr, hv]
  · simp only [xorKs_clearLookahead]
    rfl
  · simp [xorKs_nil]

/-! ### The stream -/

/-- The verdict and the output of a padded decryption of the whole ciphertext `W`, as one response (R206). -/
def State.verdict (s : State) (W : Bytes) : Response := finalResponse (unpad s.padm (xorKs W s).1 s.bs.toNat)

/-- A transform that decrypts under a padding mode, and takes data. -/
structure State.Unpads (s : State) : Prop where
  ready : s.Ready
  dir : s.dir = .decrypt
  padm : s.padm ≠ .noPad

/-- R206: the XFORM_FINAL of a padded decryption answers and leaves what the decryption of the held block and its input
gives. -/
theorem State.Unpads.finalCommand_answers {s : State} (hs : s.Unpads) {D : Bytes} (hlen : D.length < 2 ^ 32) :
    Answers (finalCommand D) s (respond (s.verdict (s.pending ++ D)) (s.decrypted (s.pending ++ D)))
      (s.verdict (s.pending ++ D)) := by
  have ha := answers_finalCommand hs.ready hlen
  rw [finalTransform_decryptPadded hs.dir hs.padm, finalTail_eq hs.ready] at ha
  exact ha

theorem State.Unpads.of_advances {s u : State} {D out : Bytes} (hs : s.Unpads) (h : Advances s u D out) : u.Unpads :=
  ⟨hs.ready.of_sameConfig h.config h.heldLegal, h.config.dir.trans hs.dir, h.config.padm ▸ hs.padm⟩

/-- R182: what is pending after part of a ciphertext has been taken, and the rest, decrypt from there as they do behind
that part. -/
theorem Advances.whole_streams {s u : State} {D out : Bytes} (h : Advances s u D out) (hs : s.Ready)
    (hheld : s.laValid = false) (tail : Bytes) :
    Streams s (D ++ tail) (out ++ (xorKs (u.pending ++ tail) u).1) (xorKs (u.pending ++ tail) u).2 := by
  obtain ⟨-, -, X, hX, hdvd, hstream, -⟩ := h
  rw [pending_of_not_laValid hheld, List.nil_append] at hX
  rw [hX, List.append_assoc]
  exact hstream.append (hs.draws_whole hdvd) (streams_xorKs _ u)

/-- R183, R186, R187: so does their unpadding: what has been output is whole blocks, and in lookahead mode a block is
kept back from them. -/
theorem Advances.unpad_whole {s u : State} {D out : Bytes} (h : Advances s u D out) (hs : s.Unpads)
    (hheld : s.laValid = false) (tail : Bytes) :
    unpad s.padm (xorKs (D ++ tail) s).1 s.bs.toNat =
      (unpad u.padm (xorKs (u.pending ++ tail) u).1 u.bs.toNat).map (out ++ ·) := by
  rw [(h.whole_streams hs.ready hheld tail).bytes, h.config.padm, h.config.bs]
  obtain ⟨-, -, X, -, hdvd, hstream, hrest⟩ := h
  have hout : out.length = X.length := by rw [← hstream.bytes, xorKs_length]
  refine unpad_append (hout ▸ hdvd) fun _ hnil => ?_
  rw [← List.length_eq_zero_iff, xorKs_length, List.length_eq_zero_iff, List.append_eq_nil_iff] at hnil
  rw [← List.length_eq_zero_iff, hout, hrest ((laMode_iff s).mpr ⟨hs.dir, hs.padm⟩) hnil.1, List.length_nil]

/-- R187: so the verdict is the same, and the output follows what has been output. -/
theorem Advances.verdict_whole {s u : State} {D out : Bytes} (h : Advances s u D out) (hs : s.Unpads)
    (hheld : s.laValid = false) (tail : Bytes) :
    (s.verdict (D ++ tail)).status = (u.verdict (u.pending ++ tail)).status ∧
      (s.verdict (D ++ tail)).detail = (u.verdict (u.pending ++ tail)).detail ∧
      ((u.verdict (u.pending ++ tail)).status = 0 →
        (s.verdict (D ++ tail)).out = out ++ (u.verdict (u.pending ++ tail)).out) := by
  rw [State.verdict, h.unpad_whole hs hheld tail]
  exact finalResponse_map_append out _

/-- R34, R185, R187: and the decryption leaves the same registers. -/
theorem Advances.decrypted_whole {s u : State} {D out : Bytes} (h : Advances s u D out) (hs : s.Ready)
    (hheld : s.laValid = false) (hm : u.m = s.m + BitVec.ofNat 64 out.length) (tail : Bytes) :
    SameRegisters (s.decrypted (D ++ tail)) (u.decrypted (u.pending ++ tail)) := by
  obtain ⟨hbytes, -, hrabbit, hrc4⟩ := h.whole_streams hs hheld tail
  have hlen : (D ++ tail).length = out.length + (u.pending ++ tail).length := by
    rw [← xorKs_length (D ++ tail) s, hbytes, List.length_append, xorKs_length]
  have hmend : (xorKs (u.pending ++ tail) u).2.m = (xorKs (D ++ tail) s).2.m := by
    rw [xorKs_m, xorKs_m, hm, hlen, BitVec.ofNat_add, BitVec.add_assoc]
  obtain ⟨-, hdir, heng, hpadm, hbs, -⟩ := xorKs_sameConfig (D ++ tail) s
  obtain ⟨-, hdir', heng', hpadm', hbs', -⟩ := h.config.trans (xorKs_sameConfig (u.pending ++ tail) u)
  exact ⟨hrabbit, hrc4, rfl, hdir'.trans hdir.symm, heng'.trans heng.symm, hpadm'.trans hpadm.symm,
    hbs'.trans hbs.symm, rfl, rfl, hmend⟩

/-- The run of `is` from `s` ends in `t` as the decryption of the whole ciphertext `W` does: with the last response `r`
saying what its verdict says, in its registers, and, if it succeeds, with its output. -/
structure EndsDecrypted (is : List Instr) (s : State) (W : Bytes) (t : State) (r : Response) : Prop where
  run : execAll is s = .next t
  last : t.outbox.getLast? = some r
  status : r.status = (s.verdict W).status
  detail : r.detail = (s.verdict W).detail
  registers : SameRegisters (s.decrypted W) t
  output : r.status = 0 → newOutput s t = (s.verdict W).out

theorem SameRegisters.trans {s t u : State} (h : SameRegisters s t) (h' : SameRegisters t u) : SameRegisters s u := by
  obtain ⟨hrabbit, hrc4, hst, hdir, heng, hpadm, hbs, hbuf, hvalid, hm⟩ := h
  obtain ⟨hrabbit', hrc4', hst', hdir', heng', hpadm', hbs', hbuf', hvalid', hm'⟩ := h'
  exact ⟨hrabbit'.trans hrabbit, hrc4'.trans hrc4, hst'.trans hst, hdir'.trans hdir, heng'.trans heng,
    hpadm'.trans hpadm, hbs'.trans hbs, hbuf'.trans hbuf, hvalid'.trans hvalid, hm'.trans hm⟩

theorem SameRegisters.symm {s t : State} (h : SameRegisters s t) : SameRegisters t s := by
  obtain ⟨hrabbit, hrc4, hst, hdir, heng, hpadm, hbs, hbuf, hvalid, hm⟩ := h
  exact ⟨hrabbit.symm, hrc4.symm, hst.symm, hdir.symm, heng.symm, hpadm.symm, hbs.symm, hbuf.symm, hvalid.symm, hm.symm⟩

/-- R187: in lookahead mode a stream ends as the decryption of its whole ciphertext, in any chunking. -/
theorem stream_endsDecrypted {chunks : List Bytes} {tail : Bytes} {s : State} (hs : s.Unpads)
    (hheld : s.laValid = false) (hchunks : ∀ D ∈ chunks, ChunkLegal s.bs.toNat D)
    (hlen : (chunks.flatten ++ tail).length < 2 ^ 32) :
    ∃ t r, EndsDecrypted (streamCommands chunks tail) s (chunks.flatten ++ tail) t r := by
  obtain ⟨hlens, htail⟩ := length_lt_of_mem_chunks hlen
  obtain ⟨u, out, hrun, hadv⟩ := succeeds_chunks hs.ready hchunks hlens
  have ha := (hs.of_advances hadv).finalCommand_answers htail
  obtain ⟨hx, hbox, -⟩ := id ha
  obtain ⟨hstatus, hdetail, hout⟩ := hadv.verdict_whole hs hheld tail
  refine ⟨_, _, (execAll_append hrun.run _).trans (execAll_cons_of_next hx []), by rw [hbox, List.getLast?_concat],
    hstatus.symm, hdetail.symm, hadv.decrypted_whole hs.ready hheld hrun.blockCommands_m tail, fun hr => ?_⟩
  rw [(hrun.append (Succeeds.of_answers ha hr)).newOutput_eq]
  exact (hout hr).symm

end Sys2Proof.Machine

open Sys2Proof Sys2Proof.Machine

/-- Settles O58: a stream and one XFORM_FINAL, which is a stream without chunks, both end as the decryption of the whole
input (`stream_endsDecrypted`). -/
theorem chunkIndependenceLookahead : Obligations.ChunkIndependenceLookahead := by
  intro chunks tail s hst hdir hpadm hbs hheld hchunks hlen
  have hs : s.Unpads := ⟨⟨hst, hbs, fun hv => absurd hv (by simp [hheld])⟩, hdir, hpadm⟩
  obtain ⟨t, r, hrun, hlast, hstatus, hdetail, hregs, hout⟩ :=
    stream_endsDecrypted hs hheld hchunks (Nat.lt_of_add_right_lt hlen)
  obtain ⟨u, r', hrun', hlast', hstatus', hdetail', hregs', hout'⟩ :=
    stream_endsDecrypted (chunks := []) hs hheld (by simp) (Nat.lt_of_add_right_lt hlen)
  refine ⟨t, u, r, r', hrun, exec_finalCommand_of_execAll hrun', hlast, hlast', hstatus.trans hstatus'.symm,
    hdetail.trans hdetail'.symm, hregs.symm.trans hregs', fun hr => ?_⟩
  exact (hout hr).trans (hout' (hstatus'.trans (hstatus.symm.trans hr))).symm

end

section
/-! INIT_ENC and INIT_DEC: the whole state of a legal INIT (R204), and the error its first failing check reports (R203). -/

namespace Sys2Proof.Machine

/-! ### A legal INIT -/

/-- R204, R260: a configured transform is the reset state but for ST, the configuration registers and its engine. -/
theorem initCommon_eq (dir : Direction) (eng : Engine) (padm : PadMode) (o : InitOps) (s : State) :
    initCommon dir eng padm o s = { State.reset with
      rabbit := if eng = .rabbit then Rabbit.reset.setup (initKey o) (initIvOption o) else Rabbit.reset
      rc4 := if eng = .rc4 then Rc4.ksa (keyMaterial (initKey o) (initIv o)) else Rc4.reset
      st := .active, dir := dir, eng := eng, padm := padm, bs := blockSizeOf o.bsz
      rc4MinKeyBytes := s.rc4MinKeyBytes, entropyPos := s.entropyPos, inbox := s.inbox, outbox := s.outbox } := by
  rw [initCommon, resetState_eq]
  cases eng <;> rfl

/-- R201, R202: both INITs of a legal command complete with the state that its operands configure. -/
theorem exec_inits_of_initCheck_ok {o : InitOps} {s : State} {eng : Engine} {padm : PadMode}
    (h : initCheck o s = .ok (eng, padm)) :
    exec (.initEnc o) s = .next (respond (okResponse 0 []) (initCommon .encrypt eng padm o s)) ∧
      exec (.initDec o) s = .next (respond (okResponse 0 []) (initCommon .decrypt eng padm o s)) := by
  simp only [execInitEnc_eq, execInitDec_eq, initWith, h, and_self]

/-- R51: `PayloadRead(0, n)` is the first `n` bytes. -/
theorem payloadRead_zero (payload : Bytes) (n : Nat) : payloadRead payload 0 n = payload.take n := rfl

/-- R51: `PayloadRead(m, m + n)` is the `n` bytes from `m` on. -/
theorem payloadRead_add (payload : Bytes) (m n : Nat) :
    payloadRead payload m (m + n) = (payload.drop m).take n := by
  rw [payloadRead, List.drop_take, Nat.add_sub_cancel_left]

/-- R51, R130: the key material is the payload's first KEYLEN + IVLEN bytes. -/
theorem keyMaterial_eq_take (o : InitOps) :
    keyMaterial (initKey o) (initIv o) = o.payload.take (o.keylen.toNat + o.ivlen.toNat) := by
  rw [keyMaterial, initKey, initIv, payloadRead_zero, payloadRead_add, ← List.take_add]

/-- R51, R73: the IV of a legal Rabbit INIT, if it has one, is the eight bytes after the key. -/
theorem rabbit_initIvOption {o : InitOps} (hkey : o.keylen = 16) (hiv : o.ivlen = 0 ∨ o.ivlen = 8) :
    initIvOption o = if o.ivlen = 0 then none else some ((o.payload.drop 16).take 8) := by
  rw [initIvOption, initIv, payloadRead_add, hkey]
  obtain hiv | hiv := hiv <;> rw [hiv] <;> rfl

/-! ### The first failing check -/

/-- The (STATUS, DETAIL) that an INIT reports for what InitCheck finds: those of the error, or of success (R83, R84). -/
def initCode : Except Err (Engine × PadMode) → Byte × Byte
  | .error e => (e.status, e.detail)
  | .ok _ => (0, 0)

@[simp] theorem initCode_error (e : Err) : initCode (.error e) = (e.status, e.detail) := rfl
@[simp] theorem initCode_ok (c : Engine × PadMode) : initCode (.ok c) = (0, 0) := rfl

/-- R203: an INIT reports what InitCheck finds. -/
theorem Answers.init_code {i : Instr} {dir : Direction} {o : InitOps} {s t : State} {r : Response}
    (h : Answers i s t r) (hx : exec i s = .next (initWith dir o s)) :
    (r.status, r.detail) = initCode (initCheck o s) := by
  obtain ⟨e, hc, -, rfl⟩ | ⟨eng, padm, hc, -, rfl⟩ := h.init_cases hx <;> rw [hc] <;> rfl

/-- R76: the ENG field is reserved, or selects an engine by its number. -/
theorem engine_ofField_cases : ∀ f : BitVec 4,
    (1 < f.toNat ∧ Engine.ofField f = none) ∨ (f.toNat = 0 ∧ Engine.ofField f = some .rabbit) ∨
      (f.toNat = 1 ∧ Engine.ofField f = some .rc4) := by decide

/-- R77: exactly the values above 4 of the PADM field are reserved. -/
theorem padMode_ofField_eq_none_iff : ∀ f : BitVec 4, PadMode.ofField f = none ↔ 4 < f.toNat := by decide

theorem padMode_ofField_cases (f : BitVec 4) :
    (4 < f.toNat ∧ PadMode.ofField f = none) ∨ (¬ 4 < f.toNat ∧ ∃ padm, PadMode.ofField f = some padm) := by
  rw [← padMode_ofField_eq_none_iff, ← ne_eq, Option.ne_none_iff_exists', and_self, and_self]
  exact Option.eq_none_or_eq_some _

/-! R203: the lengths and the block size that each engine takes. -/

@[simp] theorem keyLengthLegal_rabbit (minKey n : Nat) : keyLengthLegal .rabbit minKey n = decide (n = 16) := rfl

@[simp] theorem keyLengthLegal_rc4 (minKey n : Nat) :
    keyLengthLegal .rc4 minKey n = decide (minKey ≤ n ∧ n ≤ 32) := (Bool.decide_and ..).symm

@[simp] theorem ivLengthLegal_rabbit (n : Nat) : ivLengthLegal .rabbit n = decide (n ∈ [0, 8]) := by
  simp [ivLengthLegal, Config.rabbitIvBytes, Bool.beq_eq_decide_eq]

@[simp] theorem ivLengthLegal_rc4 (n : Nat) : ivLengthLegal .rc4 n = true := rfl

@[simp] theorem blockSizeLegal_rabbit (n : Nat) : blockSizeLegal .rabbit n = decide (n = 16) := rfl

@[simp] theorem blockSizeLegal_rc4 (n : Nat) : blockSizeLegal .rc4 n = decide (1 ≤ n ∧ n ≤ 32) :=
  (Bool.decide_and ..).symm

end Sys2Proof.Machine

open Sys2Proof Sys2Proof.Machine

/-- Settles O17: a legal Rabbit INIT passes InitCheck, and of the state it configures (`initCommon_eq`) the key is the
first sixteen payload bytes, the IV the eight after them, and BS is 16. -/
theorem rabbitInitCompletes : Obligations.RabbitInitCompletes := by
  intro o padm s h
  have hc := initCheck_of_rabbitInitLegal h
  obtain ⟨-, -, -, -, hkey, hiv, hbsz, -⟩ := h
  have hkey16 : initKey o = o.payload.take 16 := by rw [initKey, hkey]; rfl
  have hbs : blockSizeOf o.bsz = 16 := by obtain h | h := hbsz <;> rw [h] <;> rfl
  simp only [exec_inits_of_initCheck_ok hc, initCommon_eq, hkey16, rabbit_initIvOption hkey hiv, hbs]
  exact ⟨rfl, rfl⟩

/-- Settles O18: a legal RC4 INIT passes InitCheck, and key and IV together are the first bytes of the payload
(`keyMaterial_eq_take`). -/
theorem rc4InitCompletes : Obligations.Rc4InitCompletes := by
  intro o padm s h
  simp only [exec_inits_of_initCheck_ok (initCheck_of_rc4InitLegal h), initCommon_eq, keyMaterial_eq_take]
  exact ⟨rfl, rfl⟩

/-- Settles O19: the response's code is that of what InitCheck finds (`Answers.init_code`), and pushing the code through
InitCheck's own chain gives the statement's chain, engine by engine and for a reserved or a defined PADM. -/
theorem initChecksInOrder : Obligations.InitChecksInOrder := by
  intro o s t r h bs
  have hbs : (blockSizeOf o.bsz).toNat = bs := blockSizeOf_toNat o.bsz
  rw [h.elim (·.init_code (execInitEnc_eq o s)) (·.init_code (execInitDec_eq o s)), initCheck]
  obtain ⟨heng, hsel⟩ | ⟨heng, hsel⟩ | ⟨heng, hsel⟩ := engine_ofField_cases o.eng
  · simp [hsel, heng, apply_ite initCode, Err.status, Err.detail]
  · obtain ⟨hpad, hp⟩ | ⟨hpad, padm, hp⟩ := padMode_ofField_cases o.padm <;>
      simp [hsel, heng, hp, hpad, hbs, BitVec.toNat_eq, apply_ite initCode, Err.status, Err.detail]
  · obtain ⟨hpad, hp⟩ | ⟨hpad, padm, hp⟩ := padMode_ofField_cases o.padm <;>
      simp [hsel, heng, hp, hpad, hbs, BitVec.toNat_eq, -not_and, -Bool.decide_and, apply_ite initCode, Err.status,
        Err.detail]

end

section
/-! XFORM_BLOCK (R205): the whole state of a completed command in pass-through and in lookahead mode, and the error its
first failing check reports. -/

namespace Sys2Proof.Machine

/-! ### Responses to keystream XORs -/

/-- R82: RESULT is |OUT| where that fits in 32 bits. -/
theorem resultOf_of_lt {n : Nat} (h : n < 2 ^ 32) : resultOf n = BitVec.ofNat 32 n := if_pos h

theorem resultOf_count (count : Word) : resultOf count.toNat = count :=
  BitVec.eq_of_toNat_eq (resultOf_toNat count.isLt)

/-- R82, R182: the response of a command that answers a keystream XOR. -/
theorem finish_xorKs (X : Bytes) (s u : State) :
    finish (xorKs X s).1 u = respond ⟨0, 0, resultOf X.length, xorBytes X (ks X.length s).1⟩ u := by
  rw [finish, xorKs_length]
  rfl

/-! ### The checks -/

/-- R205: the conditions under which XFORM_BLOCK passes its checks. -/
theorem xformBlockCheck_of_legal {count ocap : Word} {payload : Bytes} {s : State} (hst : s.st = .active)
    (hpos : count.toNat ≠ 0) (hmod : count.toNat % s.bs.toNat = 0) (hin : count.toNat ≤ payload.length)
    (hout : count ≤ ocap) : xformBlockCheck count ocap payload s = none := by
  have hroom : ¬ ocap.toNat < count.toNat := not_lt.mpr (BitVec.le_def.mp hout)
  simp [xformBlockCheck, hst, hpos, hmod, hin, hroom]

/-- The (STATUS, DETAIL) that a command reports for what its checks find: those of the error, or of success (R83, R84). -/
def checkCode (found : Option Err) : Byte × Byte := found.elim (0, 0) fun e => (e.status, e.detail)

/-- R205: XFORM_BLOCK reports what its checks find. -/
theorem Answers.xformBlock_code {count ocap : Word} {payload : Bytes} {s t : State} {r : Response}
    (h : Answers (.xformBlock count ocap payload) s t r) :
    (r.status, r.detail) = checkCode (xformBlockCheck count ocap payload s) := by
  obtain ⟨e, hc, -, rfl⟩ | ⟨hc, D, -, -, rfl⟩ := h.xformBlock_cases <;> rw [hc] <;> rfl

/-! ### Lookahead mode -/

/-- R185: the buffer after Release: zero if a block was held, and as it was otherwise. -/
theorem release_laBuf (s : State) :
    (release s).2.laBuf = if s.laValid then Vector.replicate 32 0 else s.laBuf := by
  obtain ⟨hv, hr⟩ | ⟨hv, hr⟩ := release_cases s <;> simp [hr, hv]

/-- R59, R185, R205: in lookahead mode what is pending and all of the input but its last block are XORed as one text, and
that block is held. -/
theorem blockTransform_lookahead_eq {s : State} (hs : s.Ready) (hla : s.laMode = true) {D : Bytes} {n : Nat}
    (hn : D.length = n + s.bs.toNat) :
    blockTransform D s = ((xorKs (s.pending ++ D.take n) s).1, { (xorKs (s.pending ++ D.take n) s).2 with
      laBuf := storeBlock (release s).2.laBuf (D.drop n), laValid := true }) := by
  rw [blockTransform_lookahead hla, hn, Nat.add_sub_cancel, xorKs_append (hs.draws_whole hs.bs_dvd_pending),
    State.pending]
  obtain ⟨hv, hr⟩ | ⟨hv, hr⟩ := release_cases s <;> simp only [hr, hv]
  · simp only [xorKs_clearLookahead]
    rfl
  · simp [xorKs_nil, hold]

/-- R184: Hold writes the last `B` of the first `n + B` payload bytes, and keeps the bytes of the buffer from `B` on. -/
theorem storeBlock_lastBlock (buf : Vector Byte 32) {payload : Bytes} {n B : Nat} (h : n + B ≤ payload.length) :
    storeBlock buf ((payload.take (n + B)).drop n) =
      Vector.ofFn fun k : Fin 32 => if k.val < B then payload.getD (n + k.val) 0 else buf[k] := by
  refine congrArg Vector.ofFn (funext fun k => ?_)
  rw [List.drop_take, Nat.add_sub_cancel_left]
  split_ifs with hB
  · rw [List.getD_eq_getElem _ _ (by simp; omega), List.getD_eq_getElem _ _ (by omega)]
    simp
  · exact List.getD_eq_default _ _ (by simp; omega)

/-- R205: a legal XFORM_BLOCK in lookahead mode completes: what is pending and all of the input but its last block are
XORed to the output, and that block is held. -/
theorem exec_xformBlock_lookahead {count ocap : Word} {payload X : Bytes} {s : State} {n : Nat} (hs : s.Ready)
    (hla : s.laMode = true) (hcheck : xformBlockCheck count ocap payload s = none)
    (hn : count.toNat = n + s.bs.toNat) (hX : X = s.pending ++ payload.take n) :
    exec (.xformBlock count ocap payload) s = .next
      { (ks X.length s).2 with
        m := s.m + BitVec.ofNat 64 X.length
        laBuf := Vector.ofFn fun k : Fin 32 =>
          if k.val < s.bs.toNat then payload.getD (n + k.val) 0 else (release s).2.laBuf[k]
        laValid := true
        outbox := s.outbox ++ [⟨0, 0, resultOf X.length, xorBytes X (ks X.length s).1⟩] } := by
  obtain ⟨-, -, -, hin⟩ := xformBlockCheck_none hcheck
  rw [hn] at hin
  have hfirst : (payload.take (n + s.bs.toNat)).take n = payload.take n := by
    rw [List.take_take, min_eq_left (Nat.le_add_right ..)]
  rw [exec_xformBlock_accepted hcheck, payloadRead_zero, hn,
    blockTransform_lookahead_eq hs hla (List.length_take_of_le hin), hfirst, ← hX, storeBlock_lastBlock _ hin,
    finish_xorKs]
  simp only [respond, xorKs_state, ks_outbox]

/-- R55: whole blocks are a first part and one last block. -/
theorem eq_sub_add_of_mod_eq_zero {c B : Nat} (hpos : c ≠ 0) (hmod : c % B = 0) : c = c - B + B :=
  (Nat.sub_add_cancel (Nat.le_of_dvd (Nat.pos_of_ne_zero hpos) (Nat.dvd_of_mod_eq_zero hmod))).symm

end Sys2Proof.Machine

open Sys2Proof Sys2Proof.Machine

/-- Settles O40: the checks pass, and pass-through mode XORs the COUNT payload bytes and writes nothing else
(`blockTransform_passThrough`). -/
theorem blockPassThroughCompletes : Obligations.BlockPassThroughCompletes := by
  intro count ocap payload s hst hmode hpos hmod hin hout
  have hlen : (payload.take count.toNat).length = count.toNat := List.length_take_of_le hin
  rw [exec_xformBlock_accepted (xformBlockCheck_of_legal hst hpos hmod hin hout),
    blockTransform_passThrough (not_laMode_of hmode), payloadRead_zero, finish_xorKs, xorKs_state, hlen,
    resultOf_count, BitVec.ofNat_toNat]
  simp only [respond, ks_outbox]

/-- Settles O41: of what a legal XFORM_BLOCK does in lookahead mode (`exec_xformBlock_lookahead`), the case in which nothing
is pending. -/
theorem blockLookaheadUnprimedCompletes : Obligations.BlockLookaheadUnprimedCompletes := by
  intro count ocap payload s hst hdir hpadm hbs hv hpos hmod hin hout n
  have hs : s.Ready := ⟨hst, hbs, fun _ => ⟨hst, hdir, hpadm⟩⟩
  have hla : s.laMode = true := (laMode_iff s).mpr ⟨hdir, hpadm⟩
  have hcheck := xformBlockCheck_of_legal hst hpos hmod hin hout
  have hn : count.toNat = n + s.bs.toNat := eq_sub_add_of_mod_eq_zero hpos hmod
  have hlen : (payload.take n).length = n := List.length_take_of_le (by omega)
  have hX : payload.take n = s.pending ++ payload.take n := by rw [pending_of_not_laValid hv, List.nil_append]
  have hfits : n < 2 ^ 32 := by have := count.isLt; omega
  rw [exec_xformBlock_lookahead hs hla hcheck hn hX, hlen, resultOf_of_lt hfits, release_laBuf, hv]
  rfl

/-- Settles O42: of what a legal XFORM_BLOCK does in lookahead mode (`exec_xformBlock_lookahead`), the case in which a block
is pending, so that COUNT bytes are XORed and Release has cleared the buffer. -/
theorem blockLookaheadPrimedCompletes : Obligations.BlockLookaheadPrimedCompletes := by
  intro count ocap payload s hst hdir hpadm hbs hv hpos hmod hin hout n
  have hs : s.Ready := ⟨hst, hbs, fun _ => ⟨hst, hdir, hpadm⟩⟩
  have hla : s.laMode = true := (laMode_iff s).mpr ⟨hdir, hpadm⟩
  have hcheck := xformBlockCheck_of_legal hst hpos hmod hin hout
  have hn : count.toNat = n + s.bs.toNat := eq_sub_add_of_mod_eq_zero hpos hmod
  have hX : s.heldBlock ++ payload.take n = s.pending ++ payload.take n := by rw [State.pending, if_pos hv]
  have hlen : (s.heldBlock ++ payload.take n).length = count.toNat := by
    rw [List.length_append, heldBlock_length, min_eq_left hs.bs_bounds.2, List.length_take_of_le (by omega), hn,
      Nat.add_comm]
  rw [exec_xformBlock_lookahead hs hla hcheck hn hX, hlen, resultOf_count, BitVec.ofNat_toNat, release_laBuf, if_pos hv]
  simp only [Fin.getElem_fin, Vector.getElem_replicate]
  rfl

/-- Settles O43: the response's code is that of what the checks find (`Answers.xformBlock_code`), and those stand in the
statement's order. -/
theorem blockChecksInOrder : Obligations.BlockChecksInOrder := by
  intro count ocap payload s t r h
  rw [h.xformBlock_code, xformBlockCheck]
  simp only [apply_ite checkCode]
  rfl

end

section
/-! XFORM_FINAL (R206): the whole state of a completed command in each branch, and the error its first failing check
reports. -/

namespace Sys2Proof.Machine

/-! ### The checks by the value of ST -/

theorem xformFinalCheck_idle {s : State} (hst : s.st = .idle) (count : Word) (payload : Bytes) :
    xformFinalCheck count payload s = some .notConfigured := by simp [xformFinalCheck, hst]

theorem xformFinalCheck_done {s : State} (hst : s.st = .done) (count : Word) (payload : Bytes) :
    xformFinalCheck count payload s = some .finished := by simp [xformFinalCheck, hst]

theorem xformFinalCheck_short {count : Word} {payload : Bytes} {s : State} (hst : s.st = .active)
    (hin : payload.length < count.toNat) : xformFinalCheck count payload s = some .inputShort := by
  simp [xformFinalCheck, hst, hin]

/-- R206: while ACTIVE, XFORM_FINAL passes its checks when the payload covers COUNT. -/
theorem xformFinalCheck_of_legal {count : Word} {payload : Bytes} {s : State} (hst : s.st = .active)
    (hin : count.toNat ≤ payload.length) : xformFinalCheck count payload s = none := by
  simp [xformFinalCheck, hst, hin]

/-- R206, R237: an XFORM_FINAL that its checks refuse answers their error. -/
theorem Answers.xformFinal_refused {count : Word} {payload : Bytes} {s t : State} {r : Response} {e : Err}
    (h : Answers (.xformFinal count payload) s t r) (hc : xformFinalCheck count payload s = some e) :
    (r.status, r.detail) = (e.status, e.detail) := by
  obtain ⟨-, rfl⟩ := h.of_respond (exec_xformFinal_refused hc) rfl
  rfl

/-- R206, R235: past its checks XFORM_FINAL succeeds, or raises ERR_PADDING in lookahead mode. -/
theorem Answers.xformFinal_passed {count : Word} {payload : Bytes} {s t : State} {r : Response}
    (h : Answers (.xformFinal count payload) s t r) (hc : xformFinalCheck count payload s = none) :
    r.status = 0 ∨ (r.status = 5 ∧ s.laMode = true) := by
  obtain ⟨e, he, -⟩ | ⟨-, D, -, ⟨d, hd, -, rfl⟩ | ⟨out, -, -, rfl⟩⟩ := h.xformFinal_cases
  · rw [hc] at he
    cases he
  · refine .inr ⟨rfl, ?_⟩
    cases hla : s.laMode with
    | true => rfl
    | false =>
      rw [finalTransform_passThrough hla] at hd
      cases hd
  · exact .inl rfl

/-- R150, R155: ISO10126 asks for N - 1 bytes of the entropy source, and no other mode asks for any. -/
theorem entropyAsked_eq (mode : PadMode) (B L : Nat) :
    entropyAsked mode B L = if mode = .iso10126 then B - L % B - 1 else 0 := by cases mode <;> rfl

end Sys2Proof.Machine

open Sys2Proof Sys2Proof.Machine

/-- Settles O44: the checks pass, and the encrypt branch XORs the padded text (`finalEncrypt_eq`), of whose state padding
itself has moved the entropy position alone. -/
theorem finalEncryptCompletes : Obligations.FinalEncryptCompletes := by
  intro count payload s hst hdir hin P
  have hlen : (payload.take count.toNat).length = count.toNat := List.length_take_of_le hin
  rw [exec_xformFinal_accepted (xformFinalCheck_of_legal hst hin) (finalTransform_encrypt hdir _), payloadRead_zero,
    finalEncrypt_eq, finish_xorKs, xorKs_state, hlen, entropyAsked_eq]
  simp only [respond, State.atEntropy, ks_outbox, P]

/-- Settles O45: the checks pass, and the branch of None XORs the COUNT payload bytes. -/
theorem finalDecryptPlainCompletes : Obligations.FinalDecryptPlainCompletes := by
  intro count payload s hst hdir hpadm hin
  have hlen : (payload.take count.toNat).length = count.toNat := List.length_take_of_le hin
  rw [exec_xformFinal_accepted (xformFinalCheck_of_legal hst hin) (finalTransform_decryptNone hdir hpadm _),
    payloadRead_zero, finish_xorKs, xorKs_state, hlen, resultOf_count, BitVec.ofNat_toNat]
  simp only [respond, ks_outbox]

/-- Settles O46: the checks pass, the decrypted tail is what is pending and the input as one text (`finalTail_eq`), and its
unpadding decides between the two answers. -/
theorem finalDecryptPaddedCompletes : Obligations.FinalDecryptPaddedCompletes := by
  intro count payload s hst hdir hpadm hbs hin tail D t
  have hs : s.Ready := ⟨hst, hbs, fun _ => ⟨hst, hdir, hpadm⟩⟩
  have hcheck : xformFinalCheck count payload s = none := xformFinalCheck_of_legal hst hin
  have hdata : finalTransform (payloadRead payload 0 count.toNat) s =
      (unpad s.padm D s.bs.toNat, clearLookahead (xorKs tail s).2) := by
    rw [finalTransform_decryptPadded hdir hpadm, finalTail_eq hs]
    rfl
  have hstate (r : Response) : respond r { clearLookahead (xorKs tail s).2 with st := .done } = t r := by
    simp only [respond, clearLookahead, xorKs_state, ks_outbox, t]
  refine ⟨fun P hP => ?_, fun d hd => ?_⟩
  · rw [hP] at hdata
    rw [exec_xformFinal_accepted hcheck hdata, ← hstate]
    rfl
  · rw [hd] at hdata
    rw [exec_xformFinal_padError hcheck hdata, ← hstate]
    rfl

/-- Settles O47: ST and the payload's length decide what the checks find, and past them only a padded decryption can fail
(`Answers.xformFinal_passed`). -/
theorem finalChecksInOrder : Obligations.FinalChecksInOrder := by
  intro count payload s t r h
  refine ⟨fun hst => ?_, fun hst => ?_, fun hst hin => ?_, fun hst hin => ?_⟩
  · exact h.xformFinal_refused (xformFinalCheck_idle hst count payload)
  · exact h.xformFinal_refused (xformFinalCheck_done hst count payload)
  · exact h.xformFinal_refused (xformFinalCheck_short hst hin)
  · exact (h.xformFinal_passed (xformFinalCheck_of_legal hst hin)).imp_right (.imp_right (laMode_iff s).mp)

end

section
/-! GET_INFO and DISPOSE (R85, R207, R208), which complete in every state. -/

namespace Sys2Proof.Machine

/-- A field of width `n` above the bits of `x` adds its value at its place. -/
theorem or_field_toNat {x : Word} {i n : Nat} (hx : x.toNat < 2 ^ i) (f : BitVec n) (hi : i + n ≤ 32) :
    (x ||| f.setWidth 32 <<< i).toNat = x.toNat + 2 ^ i * f.toNat := by
  have hf : 2 ^ i * f.toNat < 2 ^ 32 := by
    calc 2 ^ i * f.toNat < 2 ^ i * 2 ^ n := Nat.mul_lt_mul_of_pos_left f.isLt (Nat.two_pow_pos i)
      _ = 2 ^ (i + n) := (Nat.pow_add ..).symm
      _ ≤ 2 ^ 32 := Nat.pow_le_pow_right (by decide) hi
  have hf' : f.toNat < 2 ^ 32 := f.isLt.trans_le (Nat.pow_le_pow_right (by decide) (by omega))
  rw [BitVec.toNat_or, BitVec.toNat_shiftLeft, BitVec.toNat_setWidth, Nat.mod_eq_of_lt hf', Nat.shiftLeft_eq,
    Nat.mul_comm, Nat.mod_eq_of_lt hf, Nat.or_comm, ← Nat.two_pow_add_eq_or_of_lt hx, Nat.add_comm]

/-- R85: the fields of the INFO word stand apart, so their OR is their sum. -/
theorem infoWord_toNat (s : State) :
    s.infoWord.toNat = s.st.code.toNat + 2 ^ 2 * s.dir.code.toNat + 2 ^ 3 * s.laValid.toNat + 2 ^ 4 * s.eng.code.toNat +
      2 ^ 8 * s.padm.code.toNat + 2 ^ 16 * s.bs.toNat := by
  have hst := s.st.code.isLt
  have hdir := s.dir.code.isLt
  have hvalid := (BitVec.ofBool s.laValid).isLt
  have heng := s.eng.code.isLt
  have hpadm := s.padm.code.isLt
  have h0 : (s.st.code.setWidth 32).toNat = s.st.code.toNat := BitVec.toNat_setWidth_of_le (by decide)
  have h1 := or_field_toNat (x := s.st.code.setWidth 32) (i := 2) (by omega) s.dir.code (by decide)
  have h2 := or_field_toNat (i := 3) (by rw [h1]; omega) (BitVec.ofBool s.laValid) (by decide)
  have h3 := or_field_toNat (i := 4) (by rw [h2]; omega) s.eng.code (by decide)
  have h4 := or_field_toNat (i := 8) (by rw [h3]; omega) s.padm.code (by decide)
  have h5 := or_field_toNat (i := 16) (by rw [h4]; omega) s.bs (by decide)
  rw [State.infoWord, h5, h4, h3, h2, h1, h0, BitVec.toNat_ofBool]

/-- R41 (a), R85: after ResetState every field of the INFO word is 0. -/
theorem infoWord_resetState (s : State) : (resetState s).infoWord = 0 := by
  simp only [State.infoWord, resetState_st, resetState_dir, resetState_laValid, resetState_eng, resetState_padm,
    resetState_bs]
  decide

end Sys2Proof.Machine

open Sys2Proof Sys2Proof.Machine

/-- Settles O48: the word is the INFO word, whose fields add up (`infoWord_toNat`) and are those of ResetState in IDLE. -/
theorem getInfoCompletes : Obligations.GetInfoCompletes := fun s =>
  ⟨s.infoWord, execGetInfo_eq s, infoWord_toNat s, fun hst hz => hz hst ▸ infoWord_resetState s⟩

/-- Settles O49: DISPOSE is ResetState and a response, and ResetState leaves the reset state but for the model's own fields
(`resetState_eq`). -/
theorem disposeCompletes : Obligations.DisposeCompletes := by
  intro s
  rw [execDispose_eq, resetState_eq]
  rfl

end

section
/-! Errors (R230 to R238): a record that is no command and a refused command leave every register as it was, and
ERR_PADDING comes only from the XFORM_FINAL of a padded decryption, which it ends. -/

namespace Sys2Proof.Machine

/-! ### Which errors the checks raise -/

/-- R203: no check of INIT raises ERR_PADDING. -/
theorem initCheck_status_ne_five {o : InitOps} {s : State} {e : Err} (h : initCheck o s = .error e) : e.status ≠ 5 := by
  obtain ⟨-, rfl⟩ | ⟨-, he⟩ := initCheck_error h
  · decide
  · rw [he]; decide

/-- R205, R206: what the checks of a transform command find (`xformBlockCheck_error`, `xformFinalCheck_error`) is not
ERR_PADDING. -/
theorem status_ne_five_of_transform_error {s : State} {e : Err}
    (h : (s.st = .idle ∧ e = .notConfigured) ∨ (s.st = .done ∧ e = .finished) ∨ (s.st = .active ∧ e.status = 4)) :
    e.status ≠ 5 := by
  obtain ⟨-, rfl⟩ | ⟨-, rfl⟩ | ⟨-, he⟩ := h
  · decide
  · decide
  · rw [he]; decide

/-! ### What an answer that is no success leaves -/

/-- R203, R237: an INIT that does not succeed answers on the state it found, with an error other than ERR_PADDING. -/
theorem Answers.init_error {i : Instr} {dir : Direction} {o : InitOps} {s t : State} {r : Response}
    (h : Answers i s t r) (hx : exec i s = .next (initWith dir o s)) (hr : r.status ≠ 0) :
    r.status ≠ 5 ∧ t = respond r s := by
  obtain ⟨e, hc, rfl, rfl⟩ | ⟨eng, padm, -, -, rfl⟩ := h.init_cases hx
  · exact ⟨initCheck_status_ne_five hc, rfl⟩
  · exact absurd rfl hr

/-- R235, R237: a command that does not succeed answers on the state it found, unless it is an XFORM_FINAL that raises
ERR_PADDING. -/
theorem Answers.error_cases {i : Instr} {s t : State} {r : Response} (h : Answers i s t r) (hr : r.status ≠ 0) :
    (r.status ≠ 5 ∧ t = respond r s) ∨ (r.status = 5 ∧ IsFinal i) := by
  cases i with
  | initEnc o => exact .inl (h.init_error (execInitEnc_eq o s) hr)
  | initDec o => exact .inl (h.init_error (execInitDec_eq o s) hr)
  | xformBlock count ocap payload =>
    obtain ⟨e, hc, rfl, rfl⟩ | ⟨-, D, -, -, rfl⟩ := h.xformBlock_cases
    · exact .inl ⟨status_ne_five_of_transform_error (xformBlockCheck_error hc), rfl⟩
    · exact absurd rfl hr
  | xformFinal count payload =>
    obtain ⟨e, hc, rfl, rfl⟩ | ⟨-, D, -, ⟨d, -, -, rfl⟩ | ⟨out, -, -, rfl⟩⟩ := h.xformFinal_cases
    · exact .inl ⟨status_ne_five_of_transform_error (xformFinalCheck_error hc), rfl⟩
    · exact .inr ⟨rfl, count, payload, rfl⟩
    · exact absurd rfl hr
  | getInfo =>
    obtain ⟨-, rfl⟩ := h.getInfo
    exact absurd rfl hr
  | dispose =>
    obtain ⟨-, rfl⟩ := h.dispose
    exact absurd rfl hr

/-- R80, R81, R231: a record that does not decode is answered with its error, on the state without that record. -/
theorem step_of_decode_error {s : State} {c : Command} {rest : List Request} {e : DecodeError}
    (h : s.inbox = .command c :: rest) (hd : decode c = .error e) :
    step s = .next (raiseErr (Err.ofDecode e) { s with inbox := rest }) := by
  obtain ⟨e', he, hs⟩ | ⟨i, hi, -⟩ := step_of_command h
  · cases hd.symm.trans he
    exact hs
  · cases hd.symm.trans hi

/-! ### ERR_PADDING -/

/-- R185, R206: lookahead mode's XFORM_FINAL moves M by the held block, if there is one, and the input. -/
theorem finalTail_m (D : Bytes) (s : State) :
    (finalTail D s).2.m = s.m + BitVec.ofNat 64 ((if s.laValid then s.heldBlock.length else 0) + D.length) := by
  rw [heldBlock_length, ← release_length, BitVec.ofNat_add, ← BitVec.add_assoc, ← release_m]
  exact xorKs_m D (release s).2

/-- R206, R235, R238: an XFORM_FINAL that raises ERR_PADDING has passed its checks in lookahead mode, and leaves the
state after the decrypted tail, in DONE. -/
theorem Answers.xformFinal_padFailure {count : Word} {payload : Bytes} {s t : State} {r : Response}
    (h : Answers (.xformFinal count payload) s t r) (hr : r.status = 5) :
    xformFinalCheck count payload s = none ∧ s.laMode = true ∧ (∃ d, r = errResponse (.pad d)) ∧
      t = respond r { (finalTail (payloadRead payload 0 count.toNat) s).2 with st := .done } := by
  obtain ⟨e, hc, -, rfl⟩ | ⟨hc, D, hD, ⟨d, hd, rfl, rfl⟩ | ⟨out, -, -, rfl⟩⟩ := h.xformFinal_cases
  · exact absurd hr (status_ne_five_of_transform_error (xformFinalCheck_error hc))
  · obtain hzero | ⟨-, hla⟩ := h.xformFinal_passed hc
    · cases hr.symm.trans hzero
    · obtain ⟨hdir, hpadm⟩ := (laMode_iff s).mp hla
      refine ⟨hc, hla, ⟨d, rfl⟩, ?_⟩
      rw [finalTransform_decryptPadded hdir hpadm, hD]
      rfl
  · cases hr

end Sys2Proof.Machine

open Sys2Proof Sys2Proof.Machine

/-- Settles O9: the two classes are those the decoder refuses (`decodeRefusesExactly`), and each is answered with its error
(`step_of_decode_error`). -/
theorem illegalRecordIsAnswered : Obligations.IllegalRecordIsAnswered := by
  intro s c rest h
  obtain ⟨hopcode, hreserved⟩ := decodeRefusesExactly c
  exact ⟨fun hc => step_of_decode_error h (hopcode.mpr hc), fun hc => step_of_decode_error h (hreserved.mpr hc)⟩

/-- Settles O13: a record that does not decode is answered on the state without it, and so is a command refused with an
error other than ERR_PADDING (`Answers.error_cases`). -/
theorem rejectedCommandHasNoEffect : Obligations.RejectedCommandHasNoEffect := by
  intro s t c rest r h ht hout hr0 hr5
  obtain ⟨e, -, hs⟩ | ⟨i, -, hs⟩ := step_of_command h
  · cases ht.symm.trans hs
    obtain rfl : errResponse (Err.ofDecode e) = r := by simpa using hout
    rfl
  · obtain ⟨r', ha⟩ := answers_of_exec (hs.symm.trans ht)
    obtain ⟨-, hout', -⟩ := id ha
    obtain rfl : r = r' := by simpa using hout.symm.trans hout'
    obtain ⟨-, rfl⟩ | ⟨h5, -⟩ := ha.error_cases hr0
    · rfl
    · exact absurd h5 hr5

/-- Settles O14: only an XFORM_FINAL raises ERR_PADDING (`Answers.error_cases`), in lookahead mode, and it leaves the state
after the decrypted tail (`Answers.xformFinal_padFailure`), whose M is that of `finalTail_m`. -/
theorem paddingFailureLeavesDone : Obligations.PaddingFailureLeavesDone := by
  intro i s t r h hr
  obtain ⟨hne, -⟩ | ⟨-, count, payload, rfl⟩ := h.error_cases (by rw [hr]; decide)
  · exact absurd hr hne
  · obtain ⟨hc, hla, ⟨d, rfl⟩, rfl⟩ := h.xformFinal_padFailure hr
    obtain ⟨hdir, hpadm⟩ := (laMode_iff s).mp hla
    have hm := finalTail_m (payloadRead payload 0 count.toNat) s
    rw [length_payloadRead_of_xformFinalCheck hc] at hm
    exact ⟨count, payload, rfl, xformFinalCheck_none hc, hdir, hpadm, rfl, rfl, rfl, rfl, rfl, hm⟩

end
